-- ==== Sys2Proof/Word.lean ====
section
/-! DEFINITION. The word types of RFSYNC (spec/00_scope.md R9, spec/30_encoding.md R71). -/

namespace Sys2Proof

/-- A byte is 8 bits (R9). -/
abbrev Byte := BitVec 8

/-- A nibble is 4 bits (R9): the result of `hexval` (R100). -/
abbrev Nibble := BitVec 4

/-- A frame written as one 128-bit value: the byte at offset `i` stands in bits `8*i+7 .. 8*i` (R71). -/
abbrev Frame := BitVec 128

end Sys2Proof
end

