-- ==== Sys2Proof/Config.lean ====
section
/-! DEFINITION. The constants the spec fixes, the elaboration-time parameters (spec/00_scope.md R6, R7), what the
environment chooses in one clock cycle (R8), and the values the spec leaves open, as constants without a body. -/

namespace Sys2Proof

/-- `FRAME_LEN`, bytes in a frame and capacity of the buffer (R6). -/
def Config.frameLen : Nat := 16

/-- `PAYLOAD_LEN`, bytes of payload and of a tag (R6). -/
def Config.payloadLen : Nat := 10

/-- `STX`, the start marker (R6). -/
def Config.stx : Byte := 0x02

/-- `ETX`, the end marker (R6). -/
def Config.etx : Byte := 0x03

/-- `CR`, the carriage-return sentinel (R6). -/
def Config.cr : Byte := 0x0D

/-- `LF`, the line-feed sentinel (R6). -/
def Config.lf : Byte := 0x0A

/-- `BAUD`, the baud rate handed to the transport (R6, R44). -/
def Config.baud : BitVec 32 := 9600

/-- What a byte of the frame buffer that is not listed reads as: the reset contents and the cleared contents (R33, R34, R35). -/
def Config.unlistedByte : Byte := 0x00

/-- The mask of a structurally correct frame (R71): bytes 15, 14, 13 and 0 are compared. -/
def Config.frameMask : Frame := 0xFFFFFF000000000000000000000000FF

/-- The match of a structurally correct frame (R71): byte 15 is 0x03, byte 14 is 0x0A, byte 13 is 0x0D, byte 0 is 0x02. -/
def Config.frameMatch : Frame := 0x030A0D00000000000000000000000002

/-- The four parameters the model takes as arguments (R6, U4). They are fixed at elaboration time and no operation writes them
(R31 (b), R40). Their widths are `TIMER_W` = 32 and `CNT_W` = 8, so of the bounds of R7 only `1 <= READY_THRESHOLD` is left to say. -/
structure Params where
  /-- `SETTLE_TICKS` (R6, R156). -/
  settleTicks : BitVec 32
  /-- `TIMEOUT_TICKS` (R6, R157). -/
  timeoutTicks : BitVec 32
  /-- `READY_THRESHOLD` (R6, R157). -/
  readyThreshold : BitVec 8
  /-- `RST_IDLE_LEVEL`, true for 1 (R6, R43). -/
  rstIdleLevel : Bool
deriving DecidableEq, Repr

/-- The constraint of R7 that the widths do not already say. -/
abbrev Params.legal (p : Params) : Prop := 1 ≤ p.readyThreshold.toNat

/-- Instantiating the block with four numbers: refused (`none`) outside the bounds of R7. -/
def Params.instantiate (settle timeout ready idleLevel : Nat) : Option Params :=
  if settle < 2 ^ 32 ∧ timeout < 2 ^ 32 ∧ 1 ≤ ready ∧ ready < 2 ^ 8 ∧ idleLevel < 2 then
    some ⟨BitVec.ofNat 32 settle, BitVec.ofNat 32 timeout, BitVec.ofNat 8 ready, idleLevel == 1⟩
  else none

/-- The parameters with the spec's two defaults, `READY_THRESHOLD` = 16 and `RST_IDLE_LEVEL` = 1 (R6). `SETTLE_TICKS` and
`TIMEOUT_TICKS` have no default and are always given. -/
def Params.withDefaults (settle timeout : BitVec 32) : Params := ⟨settle, timeout, 16, true⟩

/-- The settle delay of the instance: OPEN, no default (R6). Free: no body. -/
opaque Config.settleTicks : BitVec 32

/-- The read deadline of the instance: OPEN, no default (R6). Free: no body. -/
opaque Config.timeoutTicks : BitVec 32

/-- The availability threshold of the instance less one: OPEN (R6), so the threshold is any of 1 to 255 (R7). Free: no body. -/
opaque Config.readySlack : Fin 255

/-- The idle level of the reset/re-arm pin of the instance: OPEN (R6). Free: no body. -/
opaque Config.rstIdleLevel : Bool

/-- The parameters of the instance (R6): each open one is a constant without a body. -/
def Config.params : Params :=
  ⟨Config.settleTicks, Config.timeoutTicks, BitVec.ofNat 8 (Config.readySlack.val + 1), Config.rstIdleLevel⟩

/-- What the environment (host, transport, reader module) chooses in one clock cycle (R8, R11, R41, R56). -/
structure EnvMove where
  /-- The input `hw_reset` (R41). -/
  hwReset : Bool
  /-- The input `cmd` (R41, R72). -/
  cmd : BitVec 2
  /-- The input `tir` (R41). -/
  tir : Bool
  /-- What `rx_data` shows while the queue is empty: any byte, and no rule reads it (R58, U3). -/
  idleData : Byte
  /-- The bytes appended to the tail of the queue at the edge that ends the cycle (R56). -/
  arrivals : List Byte
  /-- If the cycle has `uart_begin = 1`, what the transport leaves queued (R59, U5); `none`: the queue as it is. -/
  restart : Option (List Byte)
  /-- What the transport holds after an overflow at this edge (R241, U8); `none`: no overflow. -/
  overflow : Option (List Byte)
deriving DecidableEq, Repr, Inhabited

/-- The environment's move in clock cycle `n` where the script of the state says nothing: free (R8, R11, R56). No body. -/
opaque Config.freeMove : Nat → EnvMove

/-- What `len` holds after a byte is counted at `len` = 31, where the sum does not fit the register: R81 (e) calls `len` at most 15 there and states
no result. Free (notes/assumptions/8.md): no body; its argument is the byte. -/
opaque Config.lenPastRegister : Byte → BitVec 5

end Sys2Proof
end

