-- ==== Sys2Proof/Syntax.lean ====
section
/-! DEFINITION. The operations of RFSYNC: one constructor of `Instr` for each row of spec/opcode_table.json, and the enumerations
of the formats STATE and STATUS (spec/30_encoding.md R70 to R76). -/

namespace Sys2Proof

/-- The ten states of the sequencer (spec/10_state.md R21, "a model should make `st` an enumeration of ten constructors"). Codes 10 to 15 have
no constructor (U6). -/
inductive St where
  | idle | armed | awaitPresence | awaitFrame | captureSync | captureCopy | flush | validate | extract | restoreIdle
deriving DecidableEq, Repr

/-- The six outcomes of a read cycle (spec/30_encoding.md R75, spec/60_exceptions.md R190). Codes 6 and 7 have no constructor (U6). -/
inductive ResultCode where
  | ok | noTag | timeout | tooShort | badFraming | badChecksum
deriving DecidableEq, Repr

/-- An operation word: the bits of one of the formats of R70, with the format that says where the block decodes them. The codec functions
have no bit pattern (R70): their words carry the function's name and the bytes on its inputs. -/
inductive OpWord where
  /-- Format CMD, `cmd[1:0]` (R72). -/
  | cmd (c : BitVec 2)
  /-- Format RXBYTE, the byte popped from the transport (R73). -/
  | rxbyte (b : Byte)
  /-- Format FRAME, the sixteen bytes of the buffer as one value (R71). -/
  | frame (f : Frame)
  /-- Format STATE, `st[3:0]` (R76). -/
  | state (c : BitVec 4)
  /-- Format STATUS, the outcome code of `res` and `status` (R75). -/
  | status (c : BitVec 3)
  /-- Format FUNC, HEXVAL (R70, R100). -/
  | hexval (b : Byte)
  /-- Format FUNC, BCDBYTE (R70, R102). -/
  | bcdByte (hi lo : Byte)
  /-- Format FUNC, CHECKSUM (R70, R113). -/
  | checksum (f : Frame)
  /-- Format FUNC, VALIDATEFRAME (R70, R115). -/
  | validateFrame (f : Frame) (length : Byte)
deriving DecidableEq, Repr

/-- The operations of RFSYNC, one constructor for each row of spec/opcode_table.json (R70). -/
inductive Instr where
  /-- NOP: host command 0b00 (R152). -/
  | nop
  /-- INIT: host command 0b01 (R154). -/
  | init
  /-- READ: host command 0b10 (R153). -/
  | read
  /-- CMD_RSVD: host command 0b11, as NOP (R152). -/
  | cmdRsvd
  /-- STX: received byte 0x02 (R130). -/
  | stx
  /-- ETX: received byte 0x03 (R130). -/
  | etx
  /-- LF: received byte 0x0A (R130). -/
  | lf
  /-- CR: received byte 0x0D (R130). -/
  | cr
  /-- HEX0: received byte 0x30, digit value 0 (R100). -/
  | hex0
  /-- HEX1: received byte 0x31, digit value 1 (R100). -/
  | hex1
  /-- HEX2: received byte 0x32, digit value 2 (R100). -/
  | hex2
  /-- HEX3: received byte 0x33, digit value 3 (R100). -/
  | hex3
  /-- HEX4: received byte 0x34, digit value 4 (R100). -/
  | hex4
  /-- HEX5: received byte 0x35, digit value 5 (R100). -/
  | hex5
  /-- HEX6: received byte 0x36, digit value 6 (R100). -/
  | hex6
  /-- HEX7: received byte 0x37, digit value 7 (R100). -/
  | hex7
  /-- HEX8: received byte 0x38, digit value 8 (R100). -/
  | hex8
  /-- HEX9: received byte 0x39, digit value 9 (R100). -/
  | hex9
  /-- HEXA: received byte 0x41, digit value 10 (R100). -/
  | hexA
  /-- HEXB: received byte 0x42, digit value 11 (R100). -/
  | hexB
  /-- HEXC: received byte 0x43, digit value 12 (R100). -/
  | hexC
  /-- HEXD: received byte 0x44, digit value 13 (R100). -/
  | hexD
  /-- HEXE: received byte 0x45, digit value 14 (R100). -/
  | hexE
  /-- HEXF: received byte 0x46, digit value 15 (R100). -/
  | hexF
  /-- OTHER: any other received byte (R101, R130). -/
  | other (b : Byte)
  /-- HEXVAL: the digit decoder alone (R100). -/
  | hexval (b : Byte)
  /-- BCDBYTE: the pair packer alone (R102). -/
  | bcdbyte (hi lo : Byte)
  /-- CHECKSUM: the checksum fold alone (R113). -/
  | checksum (f : Frame)
  /-- VALIDATEFRAME: the frame validator alone (R115). -/
  | validateFrame (f : Frame) (length : Byte)
  /-- FRAME_OK: a frame whose four sentinels stand at their offsets (R71, R111, R112). -/
  | frameOk (f : Frame)
  /-- S_IDLE: the clock cycle spent in that state (R151). -/
  | sIdle
  /-- S_ARMED: the clock cycle spent in that state (R155). -/
  | sArmed
  /-- S_AWAIT_PRESENCE: the clock cycle spent in that state (R156). -/
  | sAwaitPresence
  /-- S_AWAIT_FRAME: the clock cycle spent in that state (R157). -/
  | sAwaitFrame
  /-- S_CAPTURE_SYNC: the clock cycle spent in that state (R132). -/
  | sCaptureSync
  /-- S_CAPTURE_COPY: the clock cycle spent in that state (R133). -/
  | sCaptureCopy
  /-- S_FLUSH: the clock cycle spent in that state (R134). -/
  | sFlush
  /-- S_VALIDATE: the clock cycle spent in that state (R158). -/
  | sValidate
  /-- S_EXTRACT: the clock cycle spent in that state (R159). -/
  | sExtract
  /-- S_RESTORE_IDLE: the clock cycle spent in that state (R160). -/
  | sRestoreIdle
  /-- OK: the exit of a read cycle with that outcome (R190, R196). -/
  | ok
  /-- NOTAG: the exit of a read cycle with that outcome (R191, R196). -/
  | noTag
  /-- TIMEOUT: the exit of a read cycle with that outcome (R192, R196). -/
  | timeout
  /-- TOOSHORT: the exit of a read cycle with that outcome (R193, R196). -/
  | tooShort
  /-- BADFRAMING: the exit of a read cycle with that outcome (R194, R196). -/
  | badFraming
  /-- BADCHECKSUM: the exit of a read cycle with that outcome (R195, R196). -/
  | badChecksum
deriving DecidableEq, Repr

end Sys2Proof
end

