-- ==== Sys2Proof/WellFormed.lean ====
section
/-! DEFINITION. The checks on an operation: the default class OTHER names none of the twenty selected bytes, and FRAME_OK names a frame with
its sentinels in place (spec/30_encoding.md R71, R73, R74). -/

namespace Sys2Proof

/-- A byte of one of the four sentinel classes (R73). -/
def isSentinel (b : Byte) : Bool := b == Config.stx || b == Config.etx || b == Config.lf || b == Config.cr

/-- A byte of the digit code: 0x30 to 0x39 or 0x41 to 0x46 (R74). -/
def isDigit (b : Byte) : Bool := (0x30 ≤ b.toNat && b.toNat ≤ 0x39) || (0x41 ≤ b.toNat && b.toNat ≤ 0x46)

/-- The structural match of R71: `F & mask == match`. -/
def frameMatches (f : Frame) : Bool := f &&& Config.frameMask == Config.frameMatch

/-- An operation is well formed: OTHER carries one of the remaining 236 byte values (R73), FRAME_OK a structurally correct frame (R71). -/
def Instr.wellFormed : Instr → Bool
  | .other b => !isSentinel b && !isDigit b
  | .frameOk f => frameMatches f
  | .nop | .init | .read | .cmdRsvd => true
  | .stx | .etx | .lf | .cr => true
  | .hex0 | .hex1 | .hex2 | .hex3 | .hex4 | .hex5 | .hex6 | .hex7 | .hex8 | .hex9 => true
  | .hexA | .hexB | .hexC | .hexD | .hexE | .hexF => true
  | .hexval _ | .bcdbyte _ _ | .checksum _ | .validateFrame _ _ => true
  | .sIdle | .sArmed | .sAwaitPresence | .sAwaitFrame | .sCaptureSync | .sCaptureCopy | .sFlush | .sValidate => true
  | .sExtract | .sRestoreIdle => true
  | .ok | .noTag | .timeout | .tooShort | .badFraming | .badChecksum => true

end Sys2Proof
end

