-- ==== Sys2Proof/Decode.lean ====
section
/-! DEFINITION. Decoding an operation word into an operation, rejecting by name, and encoding it back (spec/30_encoding.md R70 to R76, R79). -/

namespace Sys2Proof

/-- Why a word is no operation. -/
inductive Reject where
  /-- A state code 10 to 15 (R79 (d), U6). -/
  | stateCode (c : BitVec 4)
  /-- An outcome code 6 or 7 (R79 (c), U6). -/
  | statusCode (c : BitVec 3)
  /-- A frame whose sentinel bytes are not all in place is no FRAME_OK (R71). -/
  | frameSentinels (f : Frame)
deriving DecidableEq, Repr

/-- The state code (R21, R76). -/
def St.code : St → BitVec 4
  | .idle => 0
  | .armed => 1
  | .awaitPresence => 2
  | .awaitFrame => 3
  | .captureSync => 4
  | .captureCopy => 5
  | .flush => 6
  | .validate => 7
  | .extract => 8
  | .restoreIdle => 9

/-- The outcome code (R75, R190). -/
def ResultCode.code : ResultCode → BitVec 3
  | .ok => 0
  | .noTag => 1
  | .timeout => 2
  | .tooShort => 3
  | .badFraming => 4
  | .badChecksum => 5

/-- The state with a given code, none for the codes 10 to 15 (R21, U6). -/
def St.ofCode? (c : BitVec 4) : Option St :=
  match c.toNat with
  | 0 => some .idle
  | 1 => some .armed
  | 2 => some .awaitPresence
  | 3 => some .awaitFrame
  | 4 => some .captureSync
  | 5 => some .captureCopy
  | 6 => some .flush
  | 7 => some .validate
  | 8 => some .extract
  | 9 => some .restoreIdle
  | _ => none

/-- The outcome with a given code, none for the codes 6 and 7 (R75). -/
def ResultCode.ofCode? (c : BitVec 3) : Option ResultCode :=
  match c.toNat with
  | 0 => some .ok
  | 1 => some .noTag
  | 2 => some .timeout
  | 3 => some .tooShort
  | 4 => some .badFraming
  | 5 => some .badChecksum
  | _ => none

/-- The operation that executes a state (R70, format STATE). -/
def St.instr : St → Instr
  | .idle => .sIdle
  | .armed => .sArmed
  | .awaitPresence => .sAwaitPresence
  | .awaitFrame => .sAwaitFrame
  | .captureSync => .sCaptureSync
  | .captureCopy => .sCaptureCopy
  | .flush => .sFlush
  | .validate => .sValidate
  | .extract => .sExtract
  | .restoreIdle => .sRestoreIdle

/-- The operation that ends a read cycle with an outcome (R70, format STATUS). -/
def ResultCode.instr : ResultCode → Instr
  | .ok => .ok
  | .noTag => .noTag
  | .timeout => .timeout
  | .tooShort => .tooShort
  | .badFraming => .badFraming
  | .badChecksum => .badChecksum

/-- Format CMD (R72): every code is a command, 0b11 the reserved one. -/
def decodeCmd (c : BitVec 2) : Instr :=
  match c.toNat with
  | 0 => .nop
  | 1 => .init
  | 2 => .read
  | _ => .cmdRsvd

/-- Format RXBYTE (R73, R74): twenty selected values, every other byte is of class OTHER. -/
def decodeByte (b : Byte) : Instr :=
  match b.toNat with
  | 0x02 => .stx
  | 0x03 => .etx
  | 0x0A => .lf
  | 0x0D => .cr
  | 0x30 => .hex0
  | 0x31 => .hex1
  | 0x32 => .hex2
  | 0x33 => .hex3
  | 0x34 => .hex4
  | 0x35 => .hex5
  | 0x36 => .hex6
  | 0x37 => .hex7
  | 0x38 => .hex8
  | 0x39 => .hex9
  | 0x41 => .hexA
  | 0x42 => .hexB
  | 0x43 => .hexC
  | 0x44 => .hexD
  | 0x45 => .hexE
  | 0x46 => .hexF
  | _ => .other b

/-- Decoding an operation word: total, rejecting by name (R70 to R76, R79). -/
def decode : OpWord → Except Reject Instr
  | .cmd c => .ok (decodeCmd c)
  | .rxbyte b => .ok (decodeByte b)
  | .frame f => if frameMatches f then .ok (.frameOk f) else .error (.frameSentinels f)
  | .state c =>
    match St.ofCode? c with
    | some st => .ok st.instr
    | none => .error (.stateCode c)
  | .status c =>
    match ResultCode.ofCode? c with
    | some r => .ok r.instr
    | none => .error (.statusCode c)
  | .hexval b => .ok (.hexval b)
  | .bcdByte hi lo => .ok (.bcdbyte hi lo)
  | .checksum f => .ok (.checksum f)
  | .validateFrame f n => .ok (.validateFrame f n)

/-- The byte of an operation of format RXBYTE (R73, R74), from the table's column of byte values. -/
def Instr.rxByte? : Instr → Option Byte
  | .stx => some 0x02
  | .etx => some 0x03
  | .lf => some 0x0A
  | .cr => some 0x0D
  | .hex0 => some 0x30
  | .hex1 => some 0x31
  | .hex2 => some 0x32
  | .hex3 => some 0x33
  | .hex4 => some 0x34
  | .hex5 => some 0x35
  | .hex6 => some 0x36
  | .hex7 => some 0x37
  | .hex8 => some 0x38
  | .hex9 => some 0x39
  | .hexA => some 0x41
  | .hexB => some 0x42
  | .hexC => some 0x43
  | .hexD => some 0x44
  | .hexE => some 0x45
  | .hexF => some 0x46
  | .other b => some b
  | .nop | .init | .read | .cmdRsvd => none
  | .hexval _ | .bcdbyte _ _ | .checksum _ | .validateFrame _ _ => none
  | .frameOk _ => none
  | .sIdle | .sArmed | .sAwaitPresence | .sAwaitFrame | .sCaptureSync | .sCaptureCopy | .sFlush | .sValidate => none
  | .sExtract | .sRestoreIdle => none
  | .ok | .noTag | .timeout | .tooShort | .badFraming | .badChecksum => none

/-- The digit value of an operation of format RXBYTE, from the table's column `hexval`: 0 for the sentinels and for OTHER (R73, R74, R101). -/
def Instr.digit? : Instr → Option Nibble
  | .stx | .etx | .lf | .cr | .other _ => some 0
  | .hex0 => some 0
  | .hex1 => some 1
  | .hex2 => some 2
  | .hex3 => some 3
  | .hex4 => some 4
  | .hex5 => some 5
  | .hex6 => some 6
  | .hex7 => some 7
  | .hex8 => some 8
  | .hex9 => some 9
  | .hexA => some 10
  | .hexB => some 11
  | .hexC => some 12
  | .hexD => some 13
  | .hexE => some 14
  | .hexF => some 15
  | .nop | .init | .read | .cmdRsvd => none
  | .hexval _ | .bcdbyte _ _ | .checksum _ | .validateFrame _ _ => none
  | .frameOk _ => none
  | .sIdle | .sArmed | .sAwaitPresence | .sAwaitFrame | .sCaptureSync | .sCaptureCopy | .sFlush | .sValidate => none
  | .sExtract | .sRestoreIdle => none
  | .ok | .noTag | .timeout | .tooShort | .badFraming | .badChecksum => none

/-- The word of an operation, from the encoding tables of R71 to R76. -/
def encode : Instr → OpWord
  | .nop => .cmd 0b00
  | .init => .cmd 0b01
  | .read => .cmd 0b10
  | .cmdRsvd => .cmd 0b11
  | .stx => .rxbyte 0x02
  | .etx => .rxbyte 0x03
  | .lf => .rxbyte 0x0A
  | .cr => .rxbyte 0x0D
  | .hex0 => .rxbyte 0x30
  | .hex1 => .rxbyte 0x31
  | .hex2 => .rxbyte 0x32
  | .hex3 => .rxbyte 0x33
  | .hex4 => .rxbyte 0x34
  | .hex5 => .rxbyte 0x35
  | .hex6 => .rxbyte 0x36
  | .hex7 => .rxbyte 0x37
  | .hex8 => .rxbyte 0x38
  | .hex9 => .rxbyte 0x39
  | .hexA => .rxbyte 0x41
  | .hexB => .rxbyte 0x42
  | .hexC => .rxbyte 0x43
  | .hexD => .rxbyte 0x44
  | .hexE => .rxbyte 0x45
  | .hexF => .rxbyte 0x46
  | .other b => .rxbyte b
  | .hexval b => .hexval b
  | .bcdbyte hi lo => .bcdByte hi lo
  | .checksum f => .checksum f
  | .validateFrame f n => .validateFrame f n
  | .frameOk f => .frame f
  | .sIdle => .state 0
  | .sArmed => .state 1
  | .sAwaitPresence => .state 2
  | .sAwaitFrame => .state 3
  | .sCaptureSync => .state 4
  | .sCaptureCopy => .state 5
  | .sFlush => .state 6
  | .sValidate => .state 7
  | .sExtract => .state 8
  | .sRestoreIdle => .state 9
  | .ok => .status 0
  | .noTag => .status 1
  | .timeout => .status 2
  | .tooShort => .status 3
  | .badFraming => .status 4
  | .badChecksum => .status 5

/-- The operation word that the table's bare number stands for. The table numbers each row within its format, and most formats are narrower
than the byte the number is given in, so a byte from 0 to 9 stands for a row of up to four formats. DESIGN CHOICE (notes/assumptions/1.md): a
byte 0 to 3 is read as a host command, 4 to 9 as a state code, any other as a received byte; 128 bits are a frame. -/
def tableOpWord (nbits w : Nat) : Option OpWord :=
  if 2 ^ nbits ≤ w then none
  else if nbits = 8 then
    if w < 4 then some (.cmd (BitVec.ofNat 2 w))
    else if w < 10 then some (.state (BitVec.ofNat 4 w))
    else some (.rxbyte (BitVec.ofNat 8 w))
  else if nbits = 128 then some (.frame (BitVec.ofNat 128 w))
  else none

/-- The operation the decoder reads from a number of spec/opcode_table.json (the host's name). -/
def decodeTableWord (nbits w : Nat) : Option Instr :=
  match tableOpWord nbits w with
  | some word =>
    match decode word with
    | .ok i => some i
    | .error _ => none
  | none => none

end Sys2Proof
end

