-- ==== Sys2Proof/Machine/State.lean ====
section
/-! DEFINITION. The state of the machine as plain data: the ten registers of RFSYNC (spec/10_state.md R20 to R30), the transport's queue
(spec/20_memory.md R55), the instance's parameters (spec/00_scope.md R6), and the model's own fields; the faults and refusals. -/

namespace Sys2Proof.Machine

/-- The frame buffer as memory: pairs of an offset and a byte, offsets strictly rising, no pair with the byte an unlisted offset reads as (R22, R50). -/
abbrev Memory := List Host.Cell

/-- Why the machine stops: it has no fault at all, because the step is a total function (R11) and nothing traps (R79). -/
inductive Fault
deriving DecidableEq, Repr

/-- Why the machine gives no meaning. -/
inductive Refusal where
  /-- The host's name for an operation without a meaning yet. No arm of exec answers it. Safe. -/
  | notModelled (mnemonic : String)
  /-- Raised by step if the sequencer's code decodes to no state (U6: `refuse`). Safe: none of the ten states of `St` has such a code. -/
  | reservedState (r : Reject)
deriving DecidableEq, Repr

/-- The state. R20: the ten registers are the whole state of RFSYNC; the rest is the environment's (R55), the instance's (R6) or the model's own. -/
structure State where
  /-- The sequencer state, the program counter of this hardware (R21). -/
  st : St
  /-- The frame buffer `buf[0..15]` (R22). -/
  buf : Memory
  /-- The number of bytes captured and the next store offset (R23). -/
  len : BitVec 5
  /-- The tag registers `tag[0..9]` (R24). -/
  tag : Vector Byte 10
  /-- The timer (R25). -/
  tmr : BitVec 32
  /-- The pending outcome of the running cycle (R26). -/
  res : ResultCode
  /-- The outcome of the last completed cycle (R27). -/
  status : ResultCode
  /-- A cycle has completed and no command has been accepted since (R28). -/
  done : Bool
  /-- An INIT has been accepted since hardware reset (R29). -/
  inited : Bool
  /-- The logical level of the reset/re-arm line, true for triggered (R30). -/
  rstTrig : Bool
  /-- The elaboration-time parameters of the instance (R6). No operation writes them. -/
  params : Params
  /-- The transport's queue `Q`, oldest byte first (R55). -/
  queue : List Byte
  /-- The model's own: the environment's moves of the coming clock cycles, the first is this cycle's (R8, R11). -/
  script : List EnvMove
  /-- The model's own: how many clock cycles have ended; the index of the free move once the script is used up. -/
  cycle : Nat
  /-- The model's own: the result lines of a codec function that is exercised alone (R110, R115). -/
  codec : BitVec 8
deriving DecidableEq, Repr

/-- The machine right after hardware reset: R33 and R220 give every register; nothing is specified of the environment (R221), which is free from
the first cycle on. The queue before the first cycle is empty (DESIGN CHOICE, notes/assumptions/4.md). -/
def State.reset : State where
  st := .idle
  buf := []
  len := 0
  tag := #v[0, 0, 0, 0, 0, 0, 0, 0, 0, 0]
  tmr := 0
  res := .ok
  status := .ok
  done := false
  inited := false
  rstTrig := false
  params := Config.params
  queue := []
  script := []
  cycle := 0
  codec := 0

/-- What an operation answers. -/
abbrev Answer := Host.Outcome State Fault Refusal

end Sys2Proof.Machine
end

