-- ==== Sys2Proof/Machine/Operands.lean ====
section
/-! DEFINITION. Operand assembly (spec/30_encoding.md R78, R81) and the combinational codec functions: the hex digit decoder, the pair packer
(spec/40_hex_bcd_decoder.md) and the checksum fold (spec/41_frame_validator.md R113). Frame bytes are given by offset, a function of the
offsets 0 to 15, so that the same functions serve the buffer and a frame written as one number. -/

namespace Sys2Proof.Machine

/-- The byte of a 128-bit frame at offset `i`: bits `8*i+7 .. 8*i` (R71). -/
def frameByte (f : Frame) (i : Nat) : Byte := f.extractLsb' (8 * i) 8

/-- Sixteen bytes by offset as one 128-bit value, offset 0 in the low byte (R71). -/
def frameOfBytes (b : Nat → Byte) : Frame :=
  b 15 ++ b 14 ++ b 13 ++ b 12 ++ b 11 ++ b 10 ++ b 9 ++ b 8 ++ b 7 ++ b 6 ++ b 5 ++ b 4 ++ b 3 ++ b 2 ++ b 1 ++ b 0

/-- `hexval(b)` (R100, R101): a digit's value, 0 for any other byte. -/
def hexval (b : Byte) : Nibble :=
  if 0x30 ≤ b.toNat ∧ b.toNat ≤ 0x39 then (b - 0x30).setWidth 4
  else if 0x41 ≤ b.toNat ∧ b.toNat ≤ 0x46 then (b - 0x41 + 10).setWidth 4
  else 0

/-- `bcdByte(hi, lo)` (R102, R78 (a)): the digit at the lower offset is the high nibble. -/
def bcdByte (hi lo : Byte) : Byte := hexval hi ++ hexval lo

/-- `checksum(b)` (R113): the exclusive-or fold of the five packed payload pairs, starting at 0x00. -/
def checksum (b : Nat → Byte) : Byte :=
  0x00 ^^^ bcdByte (b 1) (b 2) ^^^ bcdByte (b 3) (b 4) ^^^ bcdByte (b 5) (b 6) ^^^ bcdByte (b 7) (b 8) ^^^ bcdByte (b 9) (b 10)

/-- The checksum byte a frame transmits at offsets 11 and 12 (R114). -/
def sentChecksum (b : Nat → Byte) : Byte := bcdByte (b 11) (b 12)

/-- The upper-case digit with a given value, from the table of R74 read backwards: what a sender of a frame writes. -/
def hexDigit (n : Nibble) : Byte := if n.toNat < 10 then 0x30 + n.setWidth 8 else 0x37 + n.setWidth 8

/-- The validator's length operand: the 5-bit `len` zero-extended to `LEN_W` = 8 bits (R78 (b)). -/
def lenOperand (len : BitVec 5) : BitVec 8 := len.setWidth 8

/-- The ten payload bytes copied unchanged, frame offset `1 + i` to `tag[i]` (R78 (c), R24). -/
def tagOfBytes (b : Nat → Byte) : Vector Byte 10 :=
  #v[b 1, b 2, b 3, b 4, b 5, b 6, b 7, b 8, b 9, b 10]

/-- The cleared tag registers (R34, R35). -/
def zeroTag : Vector Byte 10 := #v[0, 0, 0, 0, 0, 0, 0, 0, 0, 0]

/-- The 80-bit port `tag`: byte `i` in bits `8*i+7 .. 8*i` (R24, R42). -/
def tagPort (t : Vector Byte 10) : BitVec 80 :=
  t[9] ++ t[8] ++ t[7] ++ t[6] ++ t[5] ++ t[4] ++ t[3] ++ t[2] ++ t[1] ++ t[0]

/-- `rx_count` of a queue: how many bytes wait, saturated at 255 (R55, R58, R81 (g)). -/
def rxCountOf (q : List Byte) : BitVec 8 := BitVec.ofNat 8 (min q.length 255)

end Sys2Proof.Machine
end

