-- ==== Sys2Proof/Machine/Flags.lean ====
section
/-! DEFINITION. The comparators of RFSYNC: it has no condition codes, and none of these is stored (spec/10_state.md R45). The marker detector
(spec/42_frame_capture.md R130), the four checks and the verdict of the frame validator (spec/41_frame_validator.md R110 to R115), and the unsigned
threshold and timer comparisons (spec/30_encoding.md R78 (d), (e)). -/

namespace Sys2Proof.Machine

/-- `is_stx(c)` (R130). -/
def isStx (c : Byte) : Bool := c == Config.stx

/-- `is_etx(c)` (R130). -/
def isEtx (c : Byte) : Bool := c == Config.etx

/-- `chk_len(n)` (R110). -/
def chkLen (n : BitVec 8) : Bool := n.toNat == Config.frameLen

/-- `chk_stx(b)` (R111). -/
def chkStx (b : Nat → Byte) : Bool := b 0 == Config.stx

/-- `chk_trailer(b)` (R112). -/
def chkTrailer (b : Nat → Byte) : Bool := b 13 == Config.cr && b 14 == Config.lf && b 15 == Config.etx

/-- `chk_sum(b)` (R114): packed bytes are compared, not ASCII bytes. -/
def chkSum (b : Nat → Byte) : Bool := checksum b == sentChecksum b

/-- `validateFrame(b, n)` (R115): the four checks in order, the first that fails decides; `ok` means valid. -/
def validateFrame (b : Nat → Byte) (n : BitVec 8) : ResultCode :=
  if !chkLen n then .tooShort
  else if !chkStx b then .badFraming
  else if !chkTrailer b then .badFraming
  else if !chkSum b then .badChecksum
  else .ok

/-- Enough bytes are queued: `rx_count >= READY_THRESHOLD`, unsigned on 8 bits (R78 (d), R157). -/
def enoughBytes (p : Params) (rxCount : BitVec 8) : Bool := p.readyThreshold.toNat ≤ rxCount.toNat

/-- The settle delay is still running: `tmr < SETTLE_TICKS`, unsigned on 32 bits (R78 (e), R156). -/
def settling (p : Params) (tmr : BitVec 32) : Bool := tmr.toNat < p.settleTicks.toNat

/-- The read deadline has passed: `tmr >= TIMEOUT_TICKS`, unsigned on 32 bits (R78 (e), R157). -/
def deadlinePassed (p : Params) (tmr : BitVec 32) : Bool := p.timeoutTicks.toNat ≤ tmr.toNat

end Sys2Proof.Machine
end

