-- ==== Sys2Proof/Machine/Ops.lean ====
section
/-! DEFINITION. The named operations the meanings share: the frame buffer as memory (spec/20_memory.md R50 to R54), the environment's move and the
edge that ends a clock cycle (R55 to R59), the clearing of the results (spec/10_state.md R34, R35), hardware reset (R33), the error exit and the
return to idle (spec/60_exceptions.md R196, R198). -/

namespace Sys2Proof.Machine

/-! ### The frame buffer as memory -/

/-- One byte of the buffer (`MemRead(a, 1)`, R10); an offset that is not listed reads 0x00 (R33 to R35). No side effect (R54). -/
def Memory.readByte : Memory → Nat → Byte
  | [], _ => Config.unlistedByte
  | (b, v) :: t, a => if b = a then v else Memory.readByte t a

/-- Lists a byte at an offset, keeping the offsets rising. -/
def Memory.setByte : Memory → Nat → Byte → Memory
  | [], a, v => [(a, v)]
  | (b, w) :: t, a, v =>
    if a < b then (a, v) :: (b, w) :: t
    else if b = a then (a, v) :: t
    else (b, w) :: Memory.setByte t a v

/-- Takes an offset out of the list, so that it reads 0x00. -/
def Memory.dropByte : Memory → Nat → Memory
  | [], _ => []
  | (b, w) :: t, a => if b = a then Memory.dropByte t a else (b, w) :: Memory.dropByte t a

/-- `MemWrite(a, 1, v)` (R10) on an offset that exists: the byte an unlisted offset reads as is not listed, so equal buffers are equal lists. -/
def Memory.writeByte (m : Memory) (a : Nat) (v : Byte) : Memory :=
  if v = Config.unlistedByte then Memory.dropByte m a else Memory.setByte m a v

/-- The capture's `MemWrite(a, 1, v)`: an offset above 15 does not exist (R10, R50), and no byte is ever stored there (R133). -/
def Memory.store (m : Memory) (a : Nat) (v : Byte) : Memory :=
  if a < Config.frameLen then m.writeByte a v else m

/-- The offsets of a memory rise strictly from a bound on. -/
def Memory.risingFrom : Nat → Memory → Bool
  | _, [] => true
  | lo, (a, _) :: t => decide (lo ≤ a) && Memory.risingFrom (a + 1) t

/-- The canonical form: offsets strictly rising and within the 16-byte buffer (R50), no byte listed that an unlisted offset reads as. -/
def Memory.wf (m : Memory) : Bool :=
  Memory.risingFrom 0 m && m.all (fun c => decide (c.1 < Config.frameLen) && c.2 != Config.unlistedByte)

/-- The sixteen bytes of a frame stored from offset 0 on. -/
def Memory.ofFrame (f : Frame) : Memory :=
  (List.range Config.frameLen).foldl (fun m i => Memory.writeByte m i (frameByte f i)) []

/-- The buffer read whole as one 128-bit value (R54, R71). -/
def Memory.frame (m : Memory) : Frame := frameOfBytes (Memory.readByte m)

/-! ### The environment -/

/-- The environment's move in this clock cycle: the script's first, and past the script's end a free one (R8, R11). -/
def State.move (s : State) : EnvMove :=
  match s.script with
  | m :: _ => m
  | [] => Config.freeMove s.cycle

/-- What `Pop()` would yield in this cycle: the byte at the head of the queue, `none` when `rx_count = 0` (R10, R55, R57). -/
def State.rxHead (s : State) : Option Byte := s.queue.head?

/-- The queue after the edge that ends a cycle: first the pop, then, with `uart_begin`, what the transport leaves of it, then the arrivals,
then an overflow (R56, R59, R241). -/
def transportEdge (m : EnvMove) (pop uartBegin : Bool) (q : List Byte) : List Byte :=
  let popped := if pop then q.tail else q
  let begun := if uartBegin then m.restart.getD popped else popped
  m.overflow.getD (begun ++ m.arrivals)

/-- The rising edge that ends a clock cycle, seen from the environment: the queue moves and the script goes on. `pop` and `uartBegin` are the
outputs `rx_pop` and `uart_begin` of the cycle (R44). -/
def State.clock (pop uartBegin : Bool) (s : State) : State :=
  { s with
    queue := transportEdge s.move pop uartBegin s.queue
    script := s.script.tail
    cycle := s.cycle + 1 }

/-! ### Registers written together -/

/-- The clearing that an accepted READ or INIT performs: `buf`, `len`, `tag`, `res`, `status`, `done` (R34, R35). -/
def State.clearResults (s : State) : State :=
  { s with buf := [], len := 0, tag := zeroTag, res := .ok, status := .ok, done := false }

/-- Hardware reset: every register takes its value of R33, whatever the state is; the environment and the parameters keep theirs (R207, R221). -/
def State.hardReset (s : State) : State :=
  { s with
    st := .idle, buf := [], len := 0, tag := zeroTag, tmr := 0, res := .ok, status := .ok, done := false
    inited := false, rstTrig := false }

/-! ### Error entry and return: what takes the place of an exception on this hardware -/

/-- `raise E` (R196): the code is recorded, the sequencer goes to RESTORE_IDLE, and nothing else. Success takes the same exit with code 0. -/
def State.raise (r : ResultCode) (s : State) : State := { s with res := r, st := .restoreIdle }

/-- The return (R160, R198): the line goes back to idle, the outcome is committed, and the sequencer arrives in IDLE. -/
def State.returnToIdle (s : State) : State :=
  { s with rstTrig := false, status := s.res, done := true, st := .idle }

/-! ### The store of the capture -/

/-- `len + 1` (R133) in the five bits of the register (R23). The spec increments `len` only from 15 or less (R81 (e)); the sum that does not fit is a
free value (notes/assumptions/8.md). -/
def countByte (c : Byte) (len : BitVec 5) : BitVec 5 :=
  if len.toNat + 1 < 32 then len + 1 else Config.lenPastRegister c

/-- `MemWrite(len, 1, c)` and `len <- len + 1` (R133), for every `len` the register can hold (R11). -/
def State.capture (c : Byte) (s : State) : State :=
  { s with buf := s.buf.store s.len.toNat c, len := countByte c s.len }

end Sys2Proof.Machine
end

