-- ==== Sys2Proof/Machine/Ports.lean ====
section
/-! DEFINITION. The ports of RFSYNC: the inputs it samples in a clock cycle and the outputs it drives (spec/00_scope.md R11, spec/10_state.md R41
to R44). The outputs are functions of the registers and, for `rx_pop` and `uart_begin`, of this cycle's inputs; none is stored. -/

namespace Sys2Proof.Machine

/-- The inputs sampled at the edge that ends a cycle (R11, R41). -/
structure Inputs where
  hwReset : Bool
  cmd : BitVec 2
  tir : Bool
  rxCount : BitVec 8
  rxData : Byte
deriving DecidableEq, Repr

/-- The outputs of a cycle (R11, R42, R43, R44). -/
structure Outputs where
  idle : Bool
  inited : Bool
  done : Bool
  status : BitVec 3
  tag : BitVec 80
  rstPin : Bool
  rstOe : Bool
  rxPop : Bool
  uartBegin : Bool
  uartBaud : BitVec 32
deriving DecidableEq, Repr

/-- What the input ports show in this cycle: the host and the reader module by the environment's move, the transport by its queue (R41, R55). While
the queue is empty `rx_data` is any byte of the environment's (R58, U3). -/
def State.inputs (s : State) : Inputs where
  hwReset := s.move.hwReset
  cmd := s.move.cmd
  tir := s.move.tir
  rxCount := rxCountOf s.queue
  rxData := s.queue.head?.getD s.move.idleData

/-- The states whose rules pop the transport: CAPTURE_SYNC, CAPTURE_COPY, FLUSH (R44, R57). -/
def St.pops : St → Bool
  | .captureSync | .captureCopy | .flush => true
  | .idle | .armed | .awaitPresence | .awaitFrame | .validate | .extract | .restoreIdle => false

/-- The output ports (R42 to R44). With `hw_reset = 1`, `rx_pop` and `uart_begin` are 0 (R33). -/
def State.outputs (s : State) : Outputs where
  idle := s.st == .idle
  inited := s.inited
  done := s.done
  status := s.status.code
  tag := tagPort s.tag
  rstPin := s.params.rstIdleLevel ^^ s.rstTrig
  rstOe := s.inited
  rxPop := !s.inputs.hwReset && St.pops s.st && s.inputs.rxCount != 0
  uartBegin := !s.inputs.hwReset && s.st == .idle && s.inputs.cmd == 0b01
  uartBaud := Config.baud

/-- The pad of the reset/re-arm line: not driven before INIT (R43). -/
def State.pad (s : State) : Option Bool :=
  if s.outputs.rstOe then some s.outputs.rstPin else none

end Sys2Proof.Machine
end

