-- ==== Sys2Proof/Machine/Cycles.lean ====
section
/-! DEFINITION. One clock cycle in each state of the sequencer with `hw_reset = 0` (spec/43_read_cycle_controller.md R151 to R160,
spec/42_frame_capture.md R132 to R134): the shared operations of the meanings. Each takes what the state decodes in that cycle (the command, the
popped byte, the frame) as an argument, because those words are operations of the table of their own. A register a rule does not mention keeps its
value. -/

namespace Sys2Proof.Machine

/-- IDLE (R151 to R154): INIT is always accepted, READ if `inited`, anything else writes nothing. -/
def idleCycle (c : BitVec 2) (s : State) : Answer :=
  match c.toNat with
  | 1 => .next (State.clock false true { s.clearResults with inited := true, rstTrig := false, st := .idle })
  | 2 =>
    if s.inited then .next (State.clock false false { s.clearResults with st := .armed })
    else .next (State.clock false false s)
  | _ => .next (State.clock false false s)

/-- ARMED (R155): the line goes to the triggered level and the settle count starts. -/
def armedCycle (s : State) : Answer :=
  .next (State.clock false false { s with rstTrig := true, tmr := 0, st := .awaitPresence })

/-- AWAIT_PRESENCE (R156): settle, then sample `tir` once. -/
def awaitPresenceCycle (tir : Bool) (s : State) : Answer :=
  if settling s.params s.tmr then
    .next (State.clock false false { s with tmr := s.tmr + 1, st := .awaitPresence })
  else if !tir then .next (State.clock false false (s.raise .noTag))
  else .next (State.clock false false { s with tmr := 0, st := .awaitFrame })

/-- AWAIT_FRAME (R157): the byte count is tested before the deadline. -/
def awaitFrameCycle (rxCount : BitVec 8) (s : State) : Answer :=
  if enoughBytes s.params rxCount then .next (State.clock false false { s with st := .captureSync })
  else if deadlinePassed s.params s.tmr then .next (State.clock false false (s.raise .timeout))
  else .next (State.clock false false { s with tmr := s.tmr + 1, st := .awaitFrame })

/-- CAPTURE_SYNC (R132): discard bytes until a start marker, which is stored at offset 0; an empty queue ends the capture. -/
def captureSyncCycle (popped : Option Byte) (s : State) : Answer :=
  match popped with
  | none => .next (State.clock false false { s with st := .flush })
  | some c =>
    if isStx c then
      .next (State.clock true false { s with buf := s.buf.writeByte 0 c, len := 1, st := .captureCopy })
    else .next (State.clock true false { s with st := .captureSync })

/-- CAPTURE_COPY (R133): store bytes until an end marker or the sixteenth byte; an empty queue ends the capture. -/
def captureCopyCycle (popped : Option Byte) (s : State) : Answer :=
  match popped with
  | none => .next (State.clock false false { s with st := .flush })
  | some c =>
    .next (State.clock true false
      { s.capture c with st := if isEtx c || s.len.toNat + 1 == Config.frameLen then .flush else .captureCopy })

/-- FLUSH (R134): discard a byte, unexamined; an empty queue ends the flush. -/
def flushCycle (popped : Option Byte) (s : State) : Answer :=
  match popped with
  | none => .next (State.clock false false { s with st := .validate })
  | some _ => .next (State.clock true false { s with st := .flush })

/-- VALIDATE (R158): the verdict on the frame and the captured length; a failure takes the error exit. -/
def validateCycle (b : Nat → Byte) (s : State) : Answer :=
  match validateFrame b (lenOperand s.len) with
  | .ok => .next (State.clock false false { s with st := .extract })
  | r => .next (State.clock false false (s.raise r))

/-- EXTRACT (R159): the ten payload bytes go to the tag, and Success takes the exit. -/
def extractCycle (s : State) : Answer :=
  .next (State.clock false false (State.raise .ok { s with tag := tagOfBytes s.buf.readByte }))

/-- RESTORE_IDLE (R160). -/
def restoreIdleCycle (s : State) : Answer := .next (State.clock false false s.returnToIdle)

/-- The clock cycle of the state `st` names, with the command on `cmd`, the byte `Pop()` would yield and the frame VALIDATE would read given: each is
looked at only in the states whose rule reads it (R73, R130, R151). -/
def stateCycle (c : BitVec 2) (popped : Option Byte) (b : Nat → Byte) (s : State) : Answer :=
  match s.st with
  | .idle => idleCycle c s
  | .armed => armedCycle s
  | .awaitPresence => awaitPresenceCycle s.inputs.tir s
  | .awaitFrame => awaitFrameCycle s.inputs.rxCount s
  | .captureSync => captureSyncCycle popped s
  | .captureCopy => captureCopyCycle popped s
  | .flush => flushCycle popped s
  | .validate => validateCycle b s
  | .extract => extractCycle s
  | .restoreIdle => restoreIdleCycle s

/-- The clock cycle in which the host presents a command (R151, R72): in IDLE it is examined; in any other state it is ignored and the cycle is that
of the state. -/
def commandCycle (c : BitVec 2) (s : State) : Answer := stateCycle c s.rxHead s.buf.readByte s

/-- The clock cycle in which the byte at the head of the transport is `c` (R130, R73): CAPTURE_SYNC, CAPTURE_COPY and FLUSH pop it; in any other state
it is not popped and the cycle is that of the state. -/
def byteCycle (c : Byte) (s : State) : Answer := stateCycle s.inputs.cmd (some c) s.buf.readByte s

/-- The clock cycle in which the sixteen bytes of the buffer are the frame `f` (R70 (c), R71): VALIDATE reads them; in any other state they are not
looked at and the cycle is that of the state. Where the buffer holds other bytes than `f` the verdict is on `f` and the buffer stays as it is: the
model's choice (notes/assumptions/24.md). -/
def frameCycle (f : Frame) (s : State) : Answer := stateCycle s.inputs.cmd s.rxHead (frameByte f) s

/-- A codec function exercised alone: combinational, no clock cycle, no register written (R110, R115); its result stands on the model's own result
lines. -/
def codecCall (result : BitVec 8) (s : State) : Answer := .next { s with codec := result }

end Sys2Proof.Machine
end

