-- ==== Sys2Proof/Machine/Codec.lean ====
section
/-! DEFINITION. The codec functions exercised alone, format FUNC (spec/30_encoding.md R70), and the frame decoded as a whole, format FRAME (R71). -/

namespace Sys2Proof.Machine

/-- HEXVAL (R100, R101): the nibble on the result lines. -/
def execHexval (b : Byte) (s : State) : Answer := codecCall ((hexval b).setWidth 8) s

/-- BCDBYTE (R102): the packed byte on the result lines. -/
def execBcdbyte (hi lo : Byte) (s : State) : Answer := codecCall (bcdByte hi lo) s

/-- CHECKSUM (R113): the fold over the frame's offsets 1 to 10 on the result lines. -/
def execChecksum (f : Frame) (s : State) : Answer := codecCall (checksum (frameByte f)) s

/-- VALIDATEFRAME (R115): the verdict's code on the result lines; any 8-bit length (R78 (b), R110). -/
def execValidateFrame (f : Frame) (length : Byte) (s : State) : Answer :=
  codecCall ((validateFrame (frameByte f) length).code.setWidth 8) s

/-- FRAME_OK (R71, R111, R112): the clock cycle in which VALIDATE reads a frame whose four sentinels stand in place. It passes checks 2 and 3; the
length and the checksum decide the verdict (R115). That the verdict is on the operand, whatever the buffer holds, is the model's choice
(notes/assumptions/24.md). -/
def execFrameOk (f : Frame) (s : State) : Answer := frameCycle f s

end Sys2Proof.Machine
end

