-- ==== Sys2Proof/Machine/Commands.lean ====
section
/-! DEFINITION. The host commands, format CMD (spec/30_encoding.md R72, spec/43_read_cycle_controller.md R151 to R154). -/

namespace Sys2Proof.Machine

/-- NOP (R152): the clock cycle with `cmd = 0b00`; in IDLE nothing is written. -/
def execNop (s : State) : Answer := commandCycle 0b00 s

/-- INIT (R154): the clock cycle with `cmd = 0b01`; always accepted in IDLE, ignored elsewhere (R151). -/
def execInit (s : State) : Answer := commandCycle 0b01 s

/-- READ (R153): the clock cycle with `cmd = 0b10`; accepted in IDLE with `inited`, ignored elsewhere (R151). -/
def execRead (s : State) : Answer := commandCycle 0b10 s

/-- CMD_RSVD (R152, R72): the clock cycle with `cmd = 0b11`, as NOP. -/
def execCmdRsvd (s : State) : Answer := commandCycle 0b11 s

end Sys2Proof.Machine
end

