-- ==== Sys2Proof/Machine/Outcomes.lean ====
section
/-! DEFINITION. The outcomes of a read cycle, format STATUS (spec/30_encoding.md R75, spec/60_exceptions.md R190 to R196): the clock cycle that takes the exit with that outcome. -/

namespace Sys2Proof.Machine

/-- OK (R190: "frame valid, tag extracted", by R159): the exit with Success, which delivers the ten payload bytes of the buffer as the tag. -/
def execOk (s : State) : Answer := extractCycle s

/-- NOTAG (R191, R196): the error exit of AWAIT_PRESENCE. -/
def execNoTag (s : State) : Answer := .next (State.clock false false (s.raise .noTag))

/-- TIMEOUT (R192, R196): the error exit of AWAIT_FRAME. -/
def execTimeout (s : State) : Answer := .next (State.clock false false (s.raise .timeout))

/-- TOOSHORT (R193, R196): an error exit of VALIDATE. -/
def execTooShort (s : State) : Answer := .next (State.clock false false (s.raise .tooShort))

/-- BADFRAMING (R194, R196): an error exit of VALIDATE. -/
def execBadFraming (s : State) : Answer := .next (State.clock false false (s.raise .badFraming))

/-- BADCHECKSUM (R195, R196): an error exit of VALIDATE. -/
def execBadChecksum (s : State) : Answer := .next (State.clock false false (s.raise .badChecksum))

end Sys2Proof.Machine
end

