-- ==== Sys2Proof/Machine/RxBytes.lean ====
section
/-! DEFINITION. The classes of a received byte, format RXBYTE (spec/30_encoding.md R73, R74, spec/42_frame_capture.md R130 to R134): the clock cycle in which the byte is at the head of the transport. -/

namespace Sys2Proof.Machine

/-- STX (R130, R132, R137): starts the copy in CAPTURE_SYNC, is data in CAPTURE_COPY, is discarded in FLUSH. -/
def execStx (s : State) : Answer := byteCycle 0x02 s

/-- ETX (R130, R133): ends the copy in CAPTURE_COPY, where it is stored; is discarded in CAPTURE_SYNC and FLUSH. -/
def execEtx (s : State) : Answer := byteCycle 0x03 s

/-- LF (R130): not detected during capture; stored in CAPTURE_COPY, discarded in CAPTURE_SYNC and FLUSH. -/
def execLf (s : State) : Answer := byteCycle 0x0A s

/-- CR (R130): not detected during capture; stored in CAPTURE_COPY, discarded in CAPTURE_SYNC and FLUSH. -/
def execCr (s : State) : Answer := byteCycle 0x0D s

/-- The digit '0' (R100, R130): stored in CAPTURE_COPY, discarded in CAPTURE_SYNC and FLUSH; worth 0 to the validator. -/
def execHex0 (s : State) : Answer := byteCycle 0x30 s

/-- The digit '1' (R100, R130): stored in CAPTURE_COPY, discarded in CAPTURE_SYNC and FLUSH; worth 1 to the validator. -/
def execHex1 (s : State) : Answer := byteCycle 0x31 s

/-- The digit '2' (R100, R130): stored in CAPTURE_COPY, discarded in CAPTURE_SYNC and FLUSH; worth 2 to the validator. -/
def execHex2 (s : State) : Answer := byteCycle 0x32 s

/-- The digit '3' (R100, R130): stored in CAPTURE_COPY, discarded in CAPTURE_SYNC and FLUSH; worth 3 to the validator. -/
def execHex3 (s : State) : Answer := byteCycle 0x33 s

/-- The digit '4' (R100, R130): stored in CAPTURE_COPY, discarded in CAPTURE_SYNC and FLUSH; worth 4 to the validator. -/
def execHex4 (s : State) : Answer := byteCycle 0x34 s

/-- The digit '5' (R100, R130): stored in CAPTURE_COPY, discarded in CAPTURE_SYNC and FLUSH; worth 5 to the validator. -/
def execHex5 (s : State) : Answer := byteCycle 0x35 s

/-- The digit '6' (R100, R130): stored in CAPTURE_COPY, discarded in CAPTURE_SYNC and FLUSH; worth 6 to the validator. -/
def execHex6 (s : State) : Answer := byteCycle 0x36 s

/-- The digit '7' (R100, R130): stored in CAPTURE_COPY, discarded in CAPTURE_SYNC and FLUSH; worth 7 to the validator. -/
def execHex7 (s : State) : Answer := byteCycle 0x37 s

/-- The digit '8' (R100, R130): stored in CAPTURE_COPY, discarded in CAPTURE_SYNC and FLUSH; worth 8 to the validator. -/
def execHex8 (s : State) : Answer := byteCycle 0x38 s

/-- The digit '9' (R100, R130): stored in CAPTURE_COPY, discarded in CAPTURE_SYNC and FLUSH; worth 9 to the validator. -/
def execHex9 (s : State) : Answer := byteCycle 0x39 s

/-- The digit 'A' (R100, R130): stored in CAPTURE_COPY, discarded in CAPTURE_SYNC and FLUSH; worth 10 to the validator. -/
def execHexA (s : State) : Answer := byteCycle 0x41 s

/-- The digit 'B' (R100, R130): stored in CAPTURE_COPY, discarded in CAPTURE_SYNC and FLUSH; worth 11 to the validator. -/
def execHexB (s : State) : Answer := byteCycle 0x42 s

/-- The digit 'C' (R100, R130): stored in CAPTURE_COPY, discarded in CAPTURE_SYNC and FLUSH; worth 12 to the validator. -/
def execHexC (s : State) : Answer := byteCycle 0x43 s

/-- The digit 'D' (R100, R130): stored in CAPTURE_COPY, discarded in CAPTURE_SYNC and FLUSH; worth 13 to the validator. -/
def execHexD (s : State) : Answer := byteCycle 0x44 s

/-- The digit 'E' (R100, R130): stored in CAPTURE_COPY, discarded in CAPTURE_SYNC and FLUSH; worth 14 to the validator. -/
def execHexE (s : State) : Answer := byteCycle 0x45 s

/-- The digit 'F' (R100, R130): stored in CAPTURE_COPY, discarded in CAPTURE_SYNC and FLUSH; worth 15 to the validator. -/
def execHexF (s : State) : Answer := byteCycle 0x46 s

/-- OTHER (R101, R130): any other byte; stored in CAPTURE_COPY, discarded in CAPTURE_SYNC and FLUSH; worth 0 to the validator. -/
def execOther (b : Byte) (s : State) : Answer := byteCycle b s

end Sys2Proof.Machine
end

