-- ==== Sys2Proof/Machine/Sequencer.lean ====
section
/-! DEFINITION. The states of the sequencer, format STATE (spec/30_encoding.md R76): one clock cycle by the rule of the state. -/

namespace Sys2Proof.Machine

/-- S_IDLE (R151): the command on `cmd` is examined. -/
def execSIdle (s : State) : Answer := idleCycle s.inputs.cmd s

/-- S_ARMED (R155). -/
def execSArmed (s : State) : Answer := armedCycle s

/-- S_AWAIT_PRESENCE (R156). -/
def execSAwaitPresence (s : State) : Answer := awaitPresenceCycle s.inputs.tir s

/-- S_AWAIT_FRAME (R157). -/
def execSAwaitFrame (s : State) : Answer := awaitFrameCycle s.inputs.rxCount s

/-- S_CAPTURE_SYNC (R132). -/
def execSCaptureSync (s : State) : Answer := captureSyncCycle s.rxHead s

/-- S_CAPTURE_COPY (R133). -/
def execSCaptureCopy (s : State) : Answer := captureCopyCycle s.rxHead s

/-- S_FLUSH (R134). -/
def execSFlush (s : State) : Answer := flushCycle s.rxHead s

/-- S_VALIDATE (R158): all sixteen bytes of the buffer and `len` are read. -/
def execSValidate (s : State) : Answer := validateCycle s.buf.readByte s

/-- S_EXTRACT (R159). -/
def execSExtract (s : State) : Answer := extractCycle s

/-- S_RESTORE_IDLE (R160). -/
def execSRestoreIdle (s : State) : Answer := restoreIdleCycle s

end Sys2Proof.Machine
end

