-- ==== Sys2Proof/Machine/Dispatch.lean ====
section
/-! DEFINITION. One arm per operation: a direct call of its meaning. -/

namespace Sys2Proof.Machine

/-- The meaning of every operation of spec/opcode_table.json. -/
def exec (i : Instr) (s : State) : Host.Outcome State Fault Refusal :=
  match i with
  | .nop => Sys2Proof.Machine.execNop s
  | .init => Sys2Proof.Machine.execInit s
  | .read => Sys2Proof.Machine.execRead s
  | .cmdRsvd => Sys2Proof.Machine.execCmdRsvd s
  | .stx => Sys2Proof.Machine.execStx s
  | .etx => Sys2Proof.Machine.execEtx s
  | .lf => Sys2Proof.Machine.execLf s
  | .cr => Sys2Proof.Machine.execCr s
  | .hex0 => Sys2Proof.Machine.execHex0 s
  | .hex1 => Sys2Proof.Machine.execHex1 s
  | .hex2 => Sys2Proof.Machine.execHex2 s
  | .hex3 => Sys2Proof.Machine.execHex3 s
  | .hex4 => Sys2Proof.Machine.execHex4 s
  | .hex5 => Sys2Proof.Machine.execHex5 s
  | .hex6 => Sys2Proof.Machine.execHex6 s
  | .hex7 => Sys2Proof.Machine.execHex7 s
  | .hex8 => Sys2Proof.Machine.execHex8 s
  | .hex9 => Sys2Proof.Machine.execHex9 s
  | .hexA => Sys2Proof.Machine.execHexA s
  | .hexB => Sys2Proof.Machine.execHexB s
  | .hexC => Sys2Proof.Machine.execHexC s
  | .hexD => Sys2Proof.Machine.execHexD s
  | .hexE => Sys2Proof.Machine.execHexE s
  | .hexF => Sys2Proof.Machine.execHexF s
  | .other b => Sys2Proof.Machine.execOther b s
  | .hexval b => Sys2Proof.Machine.execHexval b s
  | .bcdbyte hi lo => Sys2Proof.Machine.execBcdbyte hi lo s
  | .checksum f => Sys2Proof.Machine.execChecksum f s
  | .validateFrame f length => Sys2Proof.Machine.execValidateFrame f length s
  | .frameOk f => Sys2Proof.Machine.execFrameOk f s
  | .sIdle => Sys2Proof.Machine.execSIdle s
  | .sArmed => Sys2Proof.Machine.execSArmed s
  | .sAwaitPresence => Sys2Proof.Machine.execSAwaitPresence s
  | .sAwaitFrame => Sys2Proof.Machine.execSAwaitFrame s
  | .sCaptureSync => Sys2Proof.Machine.execSCaptureSync s
  | .sCaptureCopy => Sys2Proof.Machine.execSCaptureCopy s
  | .sFlush => Sys2Proof.Machine.execSFlush s
  | .sValidate => Sys2Proof.Machine.execSValidate s
  | .sExtract => Sys2Proof.Machine.execSExtract s
  | .sRestoreIdle => Sys2Proof.Machine.execSRestoreIdle s
  | .ok => Sys2Proof.Machine.execOk s
  | .noTag => Sys2Proof.Machine.execNoTag s
  | .timeout => Sys2Proof.Machine.execTimeout s
  | .tooShort => Sys2Proof.Machine.execTooShort s
  | .badFraming => Sys2Proof.Machine.execBadFraming s
  | .badChecksum => Sys2Proof.Machine.execBadChecksum s

end Sys2Proof.Machine
end

