-- ==== Sys2Proof/Machine/Fetch.lean ====
section
/-! DEFINITION. Where the block finds the word of the operation it executes in a clock cycle (spec/10_state.md R21, spec/30_encoding.md R70), and how
a word is put there. -/

namespace Sys2Proof.Machine

/-- The word at the program counter of this hardware: the code of the sequencer's state (R21, R76). -/
def State.fetchWord (s : State) : OpWord := .state s.st.code

/-- The words the operation at the program counter decodes in its turn (R70 (a) to (c)): the command in IDLE, the byte popped in the three popping
states, the sixteen bytes of the buffer in VALIDATE; `none` in a cycle that decodes nothing more. -/
def State.innerWord (s : State) : Option OpWord :=
  match s.st with
  | .idle => some (.cmd s.inputs.cmd)
  | .captureSync | .captureCopy | .flush => s.rxHead.map .rxbyte
  | .validate => some (.frame s.buf.frame)
  | .armed | .awaitPresence | .awaitFrame | .extract | .restoreIdle => none

/-- The state in which the environment's move of this cycle carries no hardware reset and a given command. -/
def State.withCommand (c : BitVec 2) (s : State) : State :=
  { s with script := { s.move with hwReset := false, cmd := c } :: s.script.tail }

/-- The state in which the environment's move of this cycle carries no hardware reset. -/
def State.withoutReset (s : State) : State := s.withCommand s.move.cmd

/-- A popping state: the one the sequencer is in, or CAPTURE_SYNC. -/
def State.popping (s : State) : St := if St.pops s.st then s.st else .captureSync

/-- Puts a word where the next step decodes it, with the sequencer in a state that decodes it and no hardware reset in that cycle: a command on `cmd`
in IDLE, a received byte at the head of the queue in a popping state, a frame in the buffer in VALIDATE, a state code in `st`. Outcome codes and codec
calls are not decoded by a step of their own: the state is unchanged. -/
def State.present (word : OpWord) (s : State) : State :=
  match word with
  | .cmd c => { s.withCommand c with st := .idle }
  | .rxbyte b => { s.withoutReset with st := s.popping, queue := b :: s.queue }
  | .frame f => { s.withoutReset with st := .validate, buf := Memory.ofFrame f }
  | .state c =>
    match St.ofCode? c with
    | some st => { s.withoutReset with st := st }
    | none => s
  | .status _ => s
  | .hexval _ => s
  | .bcdByte _ _ => s
  | .checksum _ => s
  | .validateFrame _ _ => s

end Sys2Proof.Machine
end

