-- ==== Sys2Proof/Machine/Step.lean ====
section
/-! DEFINITION. One step of the machine: one clock cycle (spec/00_scope.md R11). -/

namespace Sys2Proof.Machine

/-- One clock cycle (R11, R60). Hardware reset overrides every rule (R33, R199); otherwise the operation the program counter `st` names is decoded
and executed. -/
def step (s : State) : Host.Outcome State Fault Refusal :=
  if s.inputs.hwReset then .next (State.clock false false s.hardReset)
  else
    match decode s.fetchWord with
    | .ok i => exec i s
    | .error r => .refused (.reservedState r)

/-- The state in which the next step decodes and runs the operation a number of spec/opcode_table.json stands for (the host's name). -/
def State.withFetchWord (s : State) (nbits w : Nat) : State :=
  match tableOpWord nbits w with
  | some word => s.present word
  | none => s

end Sys2Proof.Machine
end

