-- ==== Sys2Proof/Safety.lean ====
section
/-! DEFINITION. What counts as a safe run: the invariants the spec states of the registers (spec/10_state.md R22, R23, R25, R26,
spec/42_frame_capture.md R131, spec/43_read_cycle_controller.md R159, R171), the transitions it allows (R170), and the terms the claims use. -/

namespace Sys2Proof.Machine

/-- The ten registers of R20, without the environment, the parameters and the model's own fields. -/
structure Registers where
  st : St
  buf : Memory
  len : BitVec 5
  tag : Vector Byte 10
  tmr : BitVec 32
  res : ResultCode
  status : ResultCode
  done : Bool
  inited : Bool
  rstTrig : Bool
deriving DecidableEq, Repr

/-- The registers of a state (R20). -/
def State.registers (s : State) : Registers :=
  ⟨s.st, s.buf, s.len, s.tag, s.tmr, s.res, s.status, s.done, s.inited, s.rstTrig⟩

/-- The environment's move `k` clock cycles from now, if the machine runs on. -/
def State.moveAt (k : Nat) (s : State) : EnvMove :=
  match s.script.drop k with
  | m :: _ => m
  | [] => Config.freeMove (s.cycle + k)

/-- A move of the environment that brings no byte and changes the queue in no other way, and carries no hardware reset. -/
def isQuiet (m : EnvMove) : Bool := !m.hwReset && m.arrivals == [] && m.restart == none && m.overflow == none

/-- The rows of the transition table (R170) with `hw_reset = 0`: which state can follow which. -/
def St.mayFollow : St → St → Bool
  | .idle, .idle | .idle, .armed => true
  | .armed, .awaitPresence => true
  | .awaitPresence, .awaitPresence | .awaitPresence, .restoreIdle | .awaitPresence, .awaitFrame => true
  | .awaitFrame, .captureSync | .awaitFrame, .restoreIdle | .awaitFrame, .awaitFrame => true
  | .captureSync, .flush | .captureSync, .captureCopy | .captureSync, .captureSync => true
  | .captureCopy, .flush | .captureCopy, .captureCopy => true
  | .flush, .flush | .flush, .validate => true
  | .validate, .extract | .validate, .restoreIdle => true
  | .extract, .restoreIdle => true
  | .restoreIdle, .idle => true
  | _, _ => false

/-- The states from READ's acceptance to the start of the capture, in which nothing has been captured (R131). -/
def St.beforeCapture : St → Bool
  | .armed | .awaitPresence | .awaitFrame | .captureSync => true
  | .idle | .captureCopy | .flush | .validate | .extract | .restoreIdle => false

/-- The invariants of the sequencer (R171 (b) to (f)) and of the timer (R25), with what of R26 and R7 they rest on. -/
structure SeqInv (s : State) : Prop where
  /-- The parameters are within the bounds of R7. -/
  legal : s.params.legal
  /-- R171 (b): the line is triggered exactly in the eight states from AWAIT_PRESENCE to RESTORE_IDLE. -/
  line : s.rstTrig = true ↔ (s.st ≠ .idle ∧ s.st ≠ .armed)
  /-- R171 (c). -/
  notInited : s.inited = false → s.st = .idle ∧ s.rstTrig = false ∧ s.done = false
  /-- R171 (d). -/
  doneIdle : s.done = true → s.st = .idle
  /-- R171 (e). -/
  statusDone : s.status ≠ .ok → s.done = true ∧ s.tag = zeroTag
  /-- R171 (f). -/
  tagDelivered : s.tag ≠ zeroTag → (s.done = true ∧ s.status = .ok) ∨ (s.st = .restoreIdle ∧ s.res = .ok)
  /-- R26: the pending outcome stays cleared until a state decides it. -/
  undecided : s.st ≠ .idle → s.st ≠ .restoreIdle → s.res = .ok
  /-- R25: in AWAIT_PRESENCE the timer stops at SETTLE_TICKS. -/
  settleBound : s.st = .awaitPresence → s.tmr.toNat ≤ s.params.settleTicks.toNat
  /-- R25: in AWAIT_FRAME the timer stops at TIMEOUT_TICKS. -/
  deadlineBound : s.st = .awaitFrame → s.tmr.toNat ≤ s.params.timeoutTicks.toNat

/-- The invariants of the capture (R23, R131, R171 (g)). -/
structure CaptureInv (s : State) : Prop where
  /-- The buffer keeps its canonical form. -/
  canonical : s.buf.wf = true
  /-- R23, R171 (g): `len` is never above 16. -/
  lenBound : s.len.toNat ≤ 16
  /-- R23: every byte at or above `len` is 0x00. -/
  tailZero : ∀ a, s.len.toNat ≤ a → s.buf.readByte a = 0x00
  /-- R131: nothing is captured before CAPTURE_SYNC has met a start marker. -/
  nothingYet : St.beforeCapture s.st = true → s.len = 0
  /-- R131: in CAPTURE_COPY `1 <= len <= 15`. -/
  copyRange : s.st = .captureCopy → 1 ≤ s.len.toNat ∧ s.len.toNat ≤ 15
  /-- R131: a captured frame begins with the start marker. -/
  startMarker : 1 ≤ s.len.toNat → s.buf.readByte 0 = 0x02
  /-- R131: an end marker is always the last byte stored. -/
  endMarkerLast : ∀ a, 1 ≤ a → a + 1 < s.len.toNat → s.buf.readByte a ≠ 0x03
  /-- R131, R133: while the copy goes on no end marker has been stored. -/
  copyNoEnd : s.st = .captureCopy → ∀ a, 1 ≤ a → a < s.len.toNat → s.buf.readByte a ≠ 0x03

/-- The captured frame passes all four checks (R115). -/
def State.frameValid (s : State) : Prop := validateFrame s.buf.readByte (lenOperand s.len) = .ok

/-- R159, R115: a tag is delivered only from a frame that passed all four checks, and is its payload. -/
structure ResultInv (s : State) : Prop where
  extractValid : s.st = .extract → s.frameValid
  exitValid : s.st = .restoreIdle → s.res = .ok → s.frameValid ∧ s.tag = tagOfBytes s.buf.readByte
  deliveredValid : s.st = .idle → s.done = true → s.status = .ok → s.frameValid ∧ s.tag = tagOfBytes s.buf.readByte

/-- A safe state: all three invariants. -/
structure Inv (s : State) : Prop where
  seq : SeqInv s
  capture : CaptureInv s
  result : ResultInv s

end Sys2Proof.Machine
end

