-- ==== Sys2Proof/Certificates/Slice0/Obligations.lean ====
section
/-! DEFINITION. The statements for the provers. Each docstring names the rules of spec/ it rests on. An operation's result is stated as an equation
between its answer and the state before with the written fields replaced, under `State.clock`, which is the edge that ends the cycle
(`ClockIsOneEdgeOfTheEnvironment` says what that edge does): every register an equation does not name is unchanged. -/

open Sys2Proof Sys2Proof.Machine

/-! ### Encoding -/

/-- Decoding the word of a well-formed operation gives the operation back (30_encoding.md sections 1 to 5). -/
def Obligations.DecodeOfEncodeIsTheOperation : Prop :=
  ∀ i : Instr, i.wellFormed = true → decode (encode i) = .ok i

/-- A word that decodes is the word of the operation it decodes to, which is well formed (30_encoding.md sections 1 to 5). -/
def Obligations.EncodeOfDecodeIsTheWord : Prop :=
  ∀ (w : OpWord) (i : Instr), decode w = .ok i → encode i = w ∧ i.wellFormed = true

/-- R79, R71, R70: the words the decoder rejects, each by its name, are the state codes 10 to 15, the outcome codes 6 and 7, and the frames whose
sentinels are not in place; every other word of every format decodes. That a rejection is a named answer of the decoder is the model's choice
(notes/assumptions/16.md), and so are the words of the codec functions (notes/assumptions/1.md). -/
def Obligations.RejectedWordsAreUnusedCodesAndUnmatchedFrames : Prop :=
  (∀ c : BitVec 4, decode (.state c) = .error (.stateCode c) ↔ 10 ≤ c.toNat) ∧
  (∀ c : BitVec 4, c.toNat < 10 → ∃ st : St, st.code = c ∧ decode (.state c) = .ok st.instr) ∧
  (∀ c : BitVec 3, decode (.status c) = .error (.statusCode c) ↔ 6 ≤ c.toNat) ∧
  (∀ c : BitVec 3, c.toNat < 6 → ∃ r : ResultCode, r.code = c ∧ decode (.status c) = .ok r.instr) ∧
  (∀ f : Frame, decode (.frame f) = .error (.frameSentinels f) ↔ frameMatches f = false) ∧
  (∀ f : Frame, frameMatches f = true → decode (.frame f) = .ok (.frameOk f)) ∧
  (∀ c : BitVec 2, decode (.cmd c) = .ok (decodeCmd c)) ∧
  (∀ b : Byte, decode (.rxbyte b) = .ok (decodeByte b)) ∧
  (∀ b : Byte, decode (.hexval b) = .ok (.hexval b)) ∧
  (∀ hi lo : Byte, decode (.bcdByte hi lo) = .ok (.bcdbyte hi lo)) ∧
  (∀ f : Frame, decode (.checksum f) = .ok (.checksum f)) ∧
  (∀ (f : Frame) (n : Byte), decode (.validateFrame f n) = .ok (.validateFrame f n))

/-- R71, R111, R112: the 128-bit mask and match select exactly the frames whose start marker and trailer checks hold. -/
def Obligations.FrameMatchIsStartMarkerAndTrailer : Prop :=
  ∀ f : Frame, frameMatches f = true ↔ chkStx (frameByte f) = true ∧ chkTrailer (frameByte f) = true

/-- R71, R72, R73, R74, R75, R76: words written out from the tables decode to the operations they stand for, one or more of each format. -/
def Obligations.WordsWrittenFromTheTablesDecode : Prop :=
  decode (.cmd 0b10) = .ok .read ∧ decode (.cmd 0b11) = .ok .cmdRsvd ∧
  decode (.rxbyte 0x02) = .ok .stx ∧ decode (.rxbyte 0x0D) = .ok .cr ∧ decode (.rxbyte 0x39) = .ok .hex9 ∧
  decode (.rxbyte 0x46) = .ok .hexF ∧ decode (.rxbyte 0x61) = .ok (.other 0x61) ∧
  decode (.state 4) = .ok .sCaptureSync ∧ decode (.state 9) = .ok .sRestoreIdle ∧ decode (.status 5) = .ok .badChecksum ∧
  decode (.frame 0x030A0D39383938373635343332313002) = .ok (.frameOk 0x030A0D39383938373635343332313002)

/-- R73, R74, R101: the class of every byte has that byte as its byte and its digit value in the table is `hexval` of the byte. -/
def Obligations.EveryByteClassHasItsDigitValue : Prop :=
  ∀ b : Byte, (decodeByte b).rxByte? = some b ∧ (decodeByte b).digit? = some (hexval b)

/-! ### Fetch -/

/-- R11, R21: where the code at the program counter decodes to an operation, a step without hardware reset is that operation. -/
def Obligations.StepRunsTheOperationAtTheProgramCounter : Prop :=
  ∀ (s : State) (i : Instr), s.inputs.hwReset = false → decode s.fetchWord = .ok i → i.wellFormed = true →
    step s = exec i s

/-- R70 (a) to (c): where the command, the byte popped or the frame in the buffer, as the state reads it, decodes to an operation, a step without
hardware reset is that operation too. That the rows of CMD, RXBYTE and FRAME mean whole clock cycles is the model's reading
(notes/assumptions/2.md). -/
def Obligations.StepRunsTheInnerOperation : Prop :=
  ∀ (s : State) (w : OpWord) (i : Instr), s.inputs.hwReset = false → s.innerWord = some w → decode w = .ok i →
    step s = exec i s

/-- R190, R196: in the four deciding states the step that ends the cycle is the operation of its outcome. That the rows of STATUS mean that cycle
is the model's reading (notes/assumptions/10.md). -/
def Obligations.DecidingStepIsTheOutcomeOperation : Prop :=
  ∀ s : State, s.inputs.hwReset = false →
    (s.st = .awaitPresence → s.params.settleTicks.toNat ≤ s.tmr.toNat → s.inputs.tir = false → step s = exec .noTag s) ∧
    (s.st = .awaitFrame → s.inputs.rxCount.toNat < s.params.readyThreshold.toNat →
      s.params.timeoutTicks.toNat ≤ s.tmr.toNat → step s = exec .timeout s) ∧
    (s.st = .validate → ∀ r : ResultCode, validateFrame s.buf.readByte (lenOperand s.len) = r → r ≠ .ok →
      step s = exec r.instr s) ∧
    (s.st = .extract → step s = exec .ok s)

/-- The model's own placement (notes/assumptions/1.md, 15.md): after `withFetchWord` the next step runs the operation the table's number decodes to. -/
def Obligations.TableWordRunsInTheNextStep : Prop :=
  ∀ (s : State) (nbits w : Nat) (i : Instr), decodeTableWord nbits w = some i →
    step (s.withFetchWord nbits w) = exec i (s.withFetchWord nbits w)

/-! ### Codec -/

/-- R100, R101: `hexval` of the sixteen digits is their value, of every other byte 0. -/
def Obligations.HexvalOfDigitsAndOfOtherBytes : Prop :=
  ∀ b : Byte,
    (0x30 ≤ b.toNat → b.toNat ≤ 0x39 → (hexval b).toNat = b.toNat - 0x30) ∧
    (0x41 ≤ b.toNat → b.toNat ≤ 0x46 → (hexval b).toNat = b.toNat - 0x41 + 10) ∧
    (¬ (0x30 ≤ b.toNat ∧ b.toNat ≤ 0x39) → ¬ (0x41 ≤ b.toNat ∧ b.toNat ≤ 0x46) → hexval b = 0)

/-- R102: the packed byte has the first digit's value in its high nibble and the second's in its low one, which is the first shifted up by four
and or-ed with the second; every byte is the packed byte of some pair. -/
def Obligations.BcdBytePacksTheFirstDigitHigh : Prop :=
  (∀ hi lo : Byte,
    (bcdByte hi lo).extractLsb' 4 4 = hexval hi ∧ (bcdByte hi lo).extractLsb' 0 4 = hexval lo ∧
    bcdByte hi lo = ((hexval hi).setWidth 8 <<< 4) ||| (hexval lo).setWidth 8) ∧
  ∀ v : Byte, ∃ hi lo : Byte, bcdByte hi lo = v

/-- R103: a byte that is no digit packs as the digit '0' does, in either position. -/
def Obligations.NonDigitPacksAsZeroDigit : Prop :=
  ∀ b x : Byte, isDigit b = false → bcdByte b x = bcdByte 0x30 x ∧ bcdByte x b = bcdByte x 0x30

/-- R113, R52: the checksum is the exclusive-or of the five packed pairs from 0x00, in whatever order the pairs are folded. -/
def Obligations.ChecksumFoldsTheFivePairsInAnyOrder : Prop :=
  ∀ (b : Nat → Byte) (pairs : List (Byte × Byte)),
    pairs.Perm [(b 1, b 2), (b 3, b 4), (b 5, b 6), (b 7, b 8), (b 9, b 10)] →
    pairs.foldl (fun acc p => acc ^^^ bcdByte p.1 p.2) 0x00 = checksum b

/-- R115: the verdict by the four checks in order; it is never NoTag or Timeout. -/
def Obligations.VerdictIsTheFirstFailedCheck : Prop :=
  ∀ (b : Nat → Byte) (n : BitVec 8),
    (validateFrame b n = .tooShort ↔ n.toNat ≠ 16) ∧
    (validateFrame b n = .badFraming ↔
      n.toNat = 16 ∧ ¬ (b 0 = 0x02 ∧ b 13 = 0x0D ∧ b 14 = 0x0A ∧ b 15 = 0x03)) ∧
    (validateFrame b n = .badChecksum ↔
      n.toNat = 16 ∧ (b 0 = 0x02 ∧ b 13 = 0x0D ∧ b 14 = 0x0A ∧ b 15 = 0x03) ∧ checksum b ≠ bcdByte (b 11) (b 12)) ∧
    (validateFrame b n = .ok ↔
      n.toNat = 16 ∧ (b 0 = 0x02 ∧ b 13 = 0x0D ∧ b 14 = 0x0A ∧ b 15 = 0x03) ∧ checksum b = bcdByte (b 11) (b 12)) ∧
    validateFrame b n ≠ .noTag ∧ validateFrame b n ≠ .timeout

/-- 95_test_vectors.md S6: a frame a sender makes of any ten payload bytes, with the checksum written as two upper-case digits, validates, and
its payload is what EXTRACT delivers. -/
def Obligations.FrameOfASenderValidates : Prop :=
  ∀ b : Nat → Byte, b 0 = 0x02 → b 13 = 0x0D → b 14 = 0x0A → b 15 = 0x03 →
    b 11 = hexDigit ((checksum b).extractLsb' 4 4) → b 12 = hexDigit ((checksum b).extractLsb' 0 4) →
    validateFrame b 16 = .ok ∧ ∀ i : Fin 10, (tagOfBytes b)[i] = b (1 + i.val)

/-- R100, R102, R113, R115: HEXVAL, BCDBYTE, CHECKSUM and VALIDATEFRAME exercised alone complete in every state; each result stands on the model's
own result lines (notes/assumptions/7.md, 11.md) and nothing else changes. -/
def Obligations.CodecOperationsCompleteAndWriteNoRegister : Prop :=
  ∀ (s : State) (b hi lo n : Byte) (f : Frame),
    exec (.hexval b) s = .next { s with codec := (hexval b).setWidth 8 } ∧
    exec (.bcdbyte hi lo) s = .next { s with codec := bcdByte hi lo } ∧
    exec (.checksum f) s = .next { s with codec := checksum (frameByte f) } ∧
    exec (.validateFrame f n) s = .next { s with codec := (validateFrame (frameByte f) n).code.setWidth 8 }

/-! ### The edge that ends a cycle -/

/-- R10, R56: the edge leaves every register, the parameters and the codec's result lines as the rule wrote them, and moves the environment once.
The script and the cycle counter are the model's own (notes/assumptions/3.md, 19.md). -/
def Obligations.ClockIsOneEdgeOfTheEnvironment : Prop :=
  ∀ (s : State) (pop uartBegin : Bool),
    (State.clock pop uartBegin s).registers = s.registers ∧ (State.clock pop uartBegin s).params = s.params ∧
    (State.clock pop uartBegin s).codec = s.codec ∧ (State.clock pop uartBegin s).script = s.script.tail ∧
    (State.clock pop uartBegin s).cycle = s.cycle + 1 ∧
    (State.clock pop uartBegin s).queue = transportEdge s.move pop uartBegin s.queue

/-- R56, R59, R241: first the pop removes the head, then the arrivals go to the tail; only a cycle with `uart_begin` lets the transport leave another
queue, and after an overflow it holds whatever the environment says. That the restart and the overflow leave any queue is the model's form of what the
spec leaves open (notes/assumptions/5.md). -/
def Obligations.EdgePopsThenAppends : Prop :=
  ∀ (m : EnvMove) (c : Byte) (q : List Byte),
    (m.overflow = none →
      transportEdge m true false (c :: q) = q ++ m.arrivals ∧
      transportEdge m false false (c :: q) = (c :: q) ++ m.arrivals ∧
      transportEdge m false false [] = m.arrivals ∧
      (m.restart = none → transportEdge m false true q = q ++ m.arrivals) ∧
      (∀ q' : List Byte, m.restart = some q' → transportEdge m false true q = q' ++ m.arrivals)) ∧
    (∀ (q' : List Byte) (pop uartBegin : Bool), m.overflow = some q' → transportEdge m pop uartBegin q = q')

/-! ### Commands -/

/-- R152: in IDLE, NOP and the reserved command write no register, and neither does READ before any INIT. -/
def Obligations.NopReservedAndEarlyReadWriteNothing : Prop :=
  ∀ s : State, s.st = .idle →
    exec .nop s = .next (State.clock false false s) ∧
    exec .cmdRsvd s = .next (State.clock false false s) ∧
    (s.inited = false → exec .read s = .next (State.clock false false s))

/-- R35: the values an accepted READ writes; every byte of the buffer reads 0x00 after it. -/
def Obligations.AcceptedReadClearsAndArms : Prop :=
  ∀ s : State, s.st = .idle → s.inited = true →
    exec .read s = .next (State.clock false false
      { s with
        buf := [], len := 0, tag := #v[0, 0, 0, 0, 0, 0, 0, 0, 0, 0], res := .ok, status := .ok, done := false, st := .armed }) ∧
    ∀ a : Nat, Memory.readByte [] a = 0x00

/-- R34: the values an accepted INIT writes; `uart_begin` is 1 in that cycle (R154). -/
def Obligations.AcceptedInitWritesTheStartingState : Prop :=
  ∀ s : State, s.st = .idle →
    exec .init s = .next (State.clock false true
      { s with
        inited := true, rstTrig := false, buf := [], len := 0, tag := #v[0, 0, 0, 0, 0, 0, 0, 0, 0, 0], res := .ok
        status := .ok, done := false }) ∧
    ∀ a : Nat, Memory.readByte [] a = 0x00

/-- R151: in any state but IDLE the four commands do what the state's own operation does. -/
def Obligations.CommandsAreIgnoredOutsideIdle : Prop :=
  ∀ s : State, s.st ≠ .idle →
    exec .nop s = exec s.st.instr s ∧ exec .init s = exec s.st.instr s ∧
    exec .read s = exec s.st.instr s ∧ exec .cmdRsvd s = exec s.st.instr s

/-- R151 to R154: in IDLE the operation S_IDLE has the effect of the command on `cmd`, whichever of the four it is. -/
def Obligations.IdleStateExaminesTheCommand : Prop :=
  ∀ s : State, s.st = .idle →
    (s.inputs.cmd = 0b01 → exec .sIdle s = .next (State.clock false true
      { s with
        inited := true, rstTrig := false, buf := [], len := 0, tag := #v[0, 0, 0, 0, 0, 0, 0, 0, 0, 0], res := .ok
        status := .ok, done := false })) ∧
    (s.inputs.cmd = 0b10 → s.inited = true → exec .sIdle s = .next (State.clock false false
      { s with
        buf := [], len := 0, tag := #v[0, 0, 0, 0, 0, 0, 0, 0, 0, 0], res := .ok, status := .ok, done := false, st := .armed })) ∧
    (s.inputs.cmd = 0b10 → s.inited = false → exec .sIdle s = .next (State.clock false false s)) ∧
    (s.inputs.cmd = 0b00 ∨ s.inputs.cmd = 0b11 → exec .sIdle s = .next (State.clock false false s))

/-! ### The states of a read cycle -/

/-- R155: ARMED triggers the line and starts the settle count; nothing is popped. -/
def Obligations.ArmedTriggersTheLine : Prop :=
  ∀ s : State, exec .sArmed s = .next (State.clock false false { s with rstTrig := true, tmr := 0, st := .awaitPresence })

/-- R156: AWAIT_PRESENCE waits while the settle delay runs, then reports NoTag or goes on with the timer at 0; nothing is popped. -/
def Obligations.AwaitPresenceSettlesThenSamples : Prop :=
  ∀ s : State,
    (s.tmr.toNat < s.params.settleTicks.toNat →
      exec .sAwaitPresence s = .next (State.clock false false { s with tmr := s.tmr + 1, st := .awaitPresence }) ∧
      (s.tmr + 1).toNat = s.tmr.toNat + 1) ∧
    (s.params.settleTicks.toNat ≤ s.tmr.toNat → s.inputs.tir = false →
      exec .sAwaitPresence s = .next (State.clock false false { s with res := .noTag, st := .restoreIdle })) ∧
    (s.params.settleTicks.toNat ≤ s.tmr.toNat → s.inputs.tir = true →
      exec .sAwaitPresence s = .next (State.clock false false { s with tmr := 0, st := .awaitFrame }))

/-- R157: AWAIT_FRAME tests the byte count before the deadline; nothing is popped. -/
def Obligations.AwaitFrameTestsCountThenDeadline : Prop :=
  ∀ s : State,
    (s.params.readyThreshold.toNat ≤ s.inputs.rxCount.toNat →
      exec .sAwaitFrame s = .next (State.clock false false { s with st := .captureSync })) ∧
    (s.inputs.rxCount.toNat < s.params.readyThreshold.toNat → s.params.timeoutTicks.toNat ≤ s.tmr.toNat →
      exec .sAwaitFrame s = .next (State.clock false false { s with res := .timeout, st := .restoreIdle })) ∧
    (s.inputs.rxCount.toNat < s.params.readyThreshold.toNat → s.tmr.toNat < s.params.timeoutTicks.toNat →
      exec .sAwaitFrame s = .next (State.clock false false { s with tmr := s.tmr + 1, st := .awaitFrame }) ∧
      (s.tmr + 1).toNat = s.tmr.toNat + 1)

/-- R132: CAPTURE_SYNC discards bytes until the start marker, which it stores at offset 0; an empty queue ends the capture. Every other byte of the
buffer reads as before. -/
def Obligations.CaptureSyncHuntsForTheStartMarker : Prop :=
  ∀ s : State,
    (s.queue = [] → exec .sCaptureSync s = .next (State.clock false false { s with st := .flush })) ∧
    (∀ q : List Byte, s.queue = 0x02 :: q →
      ∃ buf' : Memory,
        exec .sCaptureSync s = .next (State.clock true false { s with buf := buf', len := 1, st := .captureCopy }) ∧
        buf'.readByte 0 = 0x02 ∧ ∀ a : Nat, a ≠ 0 → buf'.readByte a = s.buf.readByte a) ∧
    (∀ (c : Byte) (q : List Byte), s.queue = c :: q → c ≠ 0x02 →
      exec .sCaptureSync s = .next (State.clock true false { s with st := .captureSync }))

/-- R133: CAPTURE_COPY stores the popped byte at offset `len` and counts it, and ends with the end marker, with the sixteenth byte or with an empty
queue. Every other byte of the buffer reads as before. With `len` at 16 or above, which no run reaches, the byte is popped and counted and nothing is
stored; the count past 31 is a free value (the model's reading, notes/assumptions/8.md). -/
def Obligations.CaptureCopyStoresAtLen : Prop :=
  ∀ s : State,
    (s.queue = [] → exec .sCaptureCopy s = .next (State.clock false false { s with st := .flush })) ∧
    (∀ (c : Byte) (q : List Byte), s.queue = c :: q → s.len.toNat < 16 →
      ∃ buf' : Memory,
        exec .sCaptureCopy s = .next (State.clock true false
          { s with
            buf := buf', len := s.len + 1
            st := if c = 0x03 ∨ s.len.toNat + 1 = 16 then .flush else .captureCopy }) ∧
        (s.len + 1).toNat = s.len.toNat + 1 ∧
        buf'.readByte s.len.toNat = c ∧ ∀ a : Nat, a ≠ s.len.toNat → buf'.readByte a = s.buf.readByte a) ∧
    (∀ (c : Byte) (q : List Byte), s.queue = c :: q → 16 ≤ s.len.toNat →
      ∃ len' : BitVec 5,
        exec .sCaptureCopy s = .next (State.clock true false
          { s with len := len', st := if c = 0x03 then .flush else .captureCopy }) ∧
        (s.len.toNat < 31 → len'.toNat = s.len.toNat + 1))

/-- R134: FLUSH discards one byte per cycle, unexamined, until the queue is seen empty. -/
def Obligations.FlushDiscardsUntilEmpty : Prop :=
  ∀ s : State,
    (s.queue = [] → exec .sFlush s = .next (State.clock false false { s with st := .validate })) ∧
    (s.queue ≠ [] → exec .sFlush s = .next (State.clock true false { s with st := .flush }))

/-- R158: VALIDATE goes to EXTRACT on the verdict 0 and takes the error exit with any other. -/
def Obligations.ValidateBranchesOnTheVerdict : Prop :=
  ∀ s : State,
    (validateFrame s.buf.readByte (s.len.setWidth 8) = .ok →
      exec .sValidate s = .next (State.clock false false { s with st := .extract })) ∧
    (∀ r : ResultCode, validateFrame s.buf.readByte (s.len.setWidth 8) = r → r ≠ .ok →
      exec .sValidate s = .next (State.clock false false { s with res := r, st := .restoreIdle }))

/-- R159: EXTRACT copies the bytes at offsets 1 to 10 to the tag and takes the exit with Success. -/
def Obligations.ExtractCopiesThePayload : Prop :=
  ∀ s : State, ∃ tag' : Vector Byte 10,
    exec .sExtract s = .next (State.clock false false { s with tag := tag', res := .ok, st := .restoreIdle }) ∧
    ∀ i : Fin 10, tag'[i] = s.buf.readByte (1 + i.val)

/-- R160: RESTORE_IDLE returns the line to idle, commits the outcome and sets `done`. -/
def Obligations.RestoreIdleCommitsTheOutcome : Prop :=
  ∀ s : State, exec .sRestoreIdle s =
    .next (State.clock false false { s with rstTrig := false, status := s.res, done := true, st := .idle })

/-! ### Received bytes, frames and outcomes -/

/-- R130, R132 to R134, R137: the 21 classes STX, ETX, LF, CR, HEX0 to HEX9, HEXA to HEXF and OTHER. In CAPTURE_SYNC only 0x02 is stored, at offset 0;
in CAPTURE_COPY every byte is stored at offset `len`; in FLUSH every byte is discarded; in any other state no byte is popped. The model's own readings: a
row of RXBYTE means a whole clock cycle (notes/assumptions/2.md), the row's byte is taken whatever heads the queue, even an empty one (23.md), and with
`len` at 16 or above nothing is stored (8.md). -/
def Obligations.ReceivedByteByState : Prop :=
  ∀ (i : Instr) (c : Byte) (s : State), i.rxByte? = some c →
    (s.st = .captureSync → c = 0x02 →
      ∃ buf' : Memory,
        exec i s = .next (State.clock true false { s with buf := buf', len := 1, st := .captureCopy }) ∧
        buf'.readByte 0 = 0x02 ∧ ∀ a : Nat, a ≠ 0 → buf'.readByte a = s.buf.readByte a) ∧
    (s.st = .captureSync → c ≠ 0x02 → exec i s = .next (State.clock true false s)) ∧
    (s.st = .captureCopy → s.len.toNat < 16 →
      ∃ buf' : Memory,
        exec i s = .next (State.clock true false
          { s with
            buf := buf', len := s.len + 1
            st := if c = 0x03 ∨ s.len.toNat + 1 = 16 then .flush else .captureCopy }) ∧
        buf'.readByte s.len.toNat = c ∧ ∀ a : Nat, a ≠ s.len.toNat → buf'.readByte a = s.buf.readByte a) ∧
    (s.st = .captureCopy → 16 ≤ s.len.toNat →
      ∃ len' : BitVec 5,
        exec i s = .next (State.clock true false { s with len := len', st := if c = 0x03 then .flush else .captureCopy }) ∧
        (s.len.toNat < 31 → len'.toNat = s.len.toNat + 1)) ∧
    (s.st = .flush → exec i s = .next (State.clock true false s)) ∧
    (St.pops s.st = false → exec i s = exec s.st.instr s)

/-- R71, R111 to R115, R158: a frame with its sentinels in place, read by VALIDATE, passes checks 2 and 3; the captured length and the checksum
decide. In any other state the frame is not looked at; that the row FRAME_OK means such a cycle is the model's reading
(notes/assumptions/2.md), and so is that the verdict is on the row's frame whatever the buffer holds (24.md). -/
def Obligations.SentinelsInPlaceLeaveLengthAndChecksum : Prop :=
  ∀ (f : Frame) (s : State), (Instr.frameOk f).wellFormed = true →
    (s.st = .validate → s.len.toNat ≠ 16 →
      exec (.frameOk f) s = .next (State.clock false false { s with res := .tooShort, st := .restoreIdle })) ∧
    (s.st = .validate → s.len.toNat = 16 → checksum (frameByte f) ≠ bcdByte (frameByte f 11) (frameByte f 12) →
      exec (.frameOk f) s = .next (State.clock false false { s with res := .badChecksum, st := .restoreIdle })) ∧
    (s.st = .validate → s.len.toNat = 16 → checksum (frameByte f) = bcdByte (frameByte f 11) (frameByte f 12) →
      exec (.frameOk f) s = .next (State.clock false false { s with st := .extract })) ∧
    (s.st ≠ .validate → exec (.frameOk f) s = exec s.st.instr s)

/-- R196: each of the five error exits records its code and goes to RESTORE_IDLE, and nothing else; nothing is popped. That
executing a row of STATUS is that exit cycle, in every state, is the model's reading (notes/assumptions/10.md). -/
def Obligations.ErrorExitsRecordTheirCode : Prop :=
  ∀ s : State,
    exec .noTag s = .next (State.clock false false { s with res := .noTag, st := .restoreIdle }) ∧
    exec .timeout s = .next (State.clock false false { s with res := .timeout, st := .restoreIdle }) ∧
    exec .tooShort s = .next (State.clock false false { s with res := .tooShort, st := .restoreIdle }) ∧
    exec .badFraming s = .next (State.clock false false { s with res := .badFraming, st := .restoreIdle }) ∧
    exec .badChecksum s = .next (State.clock false false { s with res := .badChecksum, st := .restoreIdle })

/-- R190 (code 0), R159: the exit with Success delivers the payload and records the code 0. That OK carries the tag with it is the model's reading
(notes/assumptions/10.md). -/
def Obligations.SuccessExitDeliversTheTag : Prop :=
  ∀ s : State, ∃ tag' : Vector Byte 10,
    exec .ok s = .next (State.clock false false { s with tag := tag', res := .ok, st := .restoreIdle }) ∧
    ∀ i : Fin 10, tag'[i] = s.buf.readByte (1 + i.val)

/-! ### Hardware reset, ports and parameters -/

/-- R33: hardware reset overrides every rule of its cycle and writes the reset values, and `rx_pop` and `uart_begin` are 0 in it; the model starts
from those values. The queue moves without a pop (R221). -/
def Obligations.HardwareResetOverridesEveryRule : Prop :=
  State.reset.registers = ⟨.idle, [], 0, #v[0, 0, 0, 0, 0, 0, 0, 0, 0, 0], 0, .ok, .ok, false, false, false⟩ ∧
  ∀ s : State, s.inputs.hwReset = true → s.outputs.rxPop = false ∧ s.outputs.uartBegin = false ∧
    ∃ t : State, step s = .next t ∧
      t.registers =
        ⟨.idle, [], 0, #v[0, 0, 0, 0, 0, 0, 0, 0, 0, 0], 0, .ok, .ok, false, false, false⟩ ∧
      (∀ a : Nat, t.buf.readByte a = 0x00) ∧ t.queue = transportEdge s.move false false s.queue ∧ t.params = s.params

/-- R33, R220: the registers right after reset; every byte of the buffer reads 0x00. -/
def Obligations.ResetValuesOfTheTenRegisters : Prop :=
  State.reset.registers = ⟨.idle, [], 0, #v[0, 0, 0, 0, 0, 0, 0, 0, 0, 0], 0, .ok, .ok, false, false, false⟩ ∧
  (∀ a : Nat, State.reset.buf.readByte a = 0x00) ∧ State.reset.pad = none

/-- R42: the output ports to the host. -/
def Obligations.HostPortsAreFunctionsOfTheRegisters : Prop :=
  ∀ s : State,
    (s.outputs.idle = true ↔ s.st = .idle) ∧ s.outputs.inited = s.inited ∧ s.outputs.done = s.done ∧
    s.outputs.status = s.status.code ∧ ∀ i : Fin 10, s.outputs.tag.extractLsb' (8 * i.val) 8 = s.tag[i]

/-- R43: the pin is driven exactly after INIT, at the idle level unless the line is triggered. -/
def Obligations.PinIsTheIdleLevelUnlessTriggered : Prop :=
  ∀ s : State,
    s.outputs.rstOe = s.inited ∧ s.outputs.rstPin = (s.params.rstIdleLevel ^^ s.rstTrig) ∧
    (s.inited = false → s.pad = none) ∧ (s.inited = true → s.pad = some (s.params.rstIdleLevel ^^ s.rstTrig))

/-- R44: the output ports to the transport. -/
def Obligations.TransportPortsByStateAndInputs : Prop :=
  ∀ s : State,
    (s.outputs.rxPop = true ↔ s.inputs.hwReset = false ∧
      (s.st = .captureSync ∨ s.st = .captureCopy ∨ s.st = .flush) ∧ 0 < s.inputs.rxCount.toNat) ∧
    (s.outputs.uartBegin = true ↔ s.inputs.hwReset = false ∧ s.st = .idle ∧ s.inputs.cmd = 0b01) ∧
    s.outputs.uartBaud = 9600

/-- R55, R58: the inputs from the transport: the count of the queue saturated at 255, and its head where there is one. -/
def Obligations.TransportInputsShowTheQueue : Prop :=
  ∀ s : State,
    s.inputs.rxCount.toNat = min s.queue.length 255 ∧ ∀ (c : Byte) (q : List Byte), s.queue = c :: q → s.inputs.rxData = c

/-- R44, R56: what a step does to the transport's queue is what its outputs ask for. -/
def Obligations.QueueMovesByTheOutputs : Prop :=
  ∀ s t : State, step s = .next t →
    t.queue = transportEdge s.move s.outputs.rxPop s.outputs.uartBegin s.queue

/-- R7: instantiation is refused exactly outside the bounds, and an instance has the numbers it was given. -/
def Obligations.InstantiationRefusesOutOfBounds : Prop :=
  ∀ settle timeout ready level : Nat,
    ((Params.instantiate settle timeout ready level).isSome = true ↔
      settle < 2 ^ 32 ∧ timeout < 2 ^ 32 ∧ 1 ≤ ready ∧ ready < 2 ^ 8 ∧ level < 2) ∧
    ∀ p : Params, Params.instantiate settle timeout ready level = some p →
      p.legal ∧ p.settleTicks.toNat = settle ∧ p.timeoutTicks.toNat = timeout ∧ p.readyThreshold.toNat = ready ∧
      p.rstIdleLevel.toNat = level

/-- R31 (b), R40: no operation and no step changes the parameters. -/
def Obligations.NothingWritesTheParameters : Prop :=
  (∀ (i : Instr) (s t : State), exec i s = .next t → t.params = s.params) ∧
  (∀ s t : State, step s = .next t → t.params = s.params)

/-! ### Rules over every step -/

/-- R170: every step without hardware reset follows a row of the transition table; with it the next state is IDLE. -/
def Obligations.StepsFollowTheTransitionTable : Prop :=
  ∀ s t : State, step s = .next t →
    (s.inputs.hwReset = false → St.mayFollow s.st t.st = true) ∧ (s.inputs.hwReset = true → t.st = .idle)

/-- R155, R160, R24, R22, R29: only ARMED triggers the line; only RESTORE_IDLE sets `done` or writes `status` with anything but 0; only EXTRACT writes
`tag` with anything but zeros, and only the capture writes `buf` with anything but zeros; only an accepted INIT sets `inited`, and only hardware reset
clears it. -/
def Obligations.EachResultAndModeRegisterHasItsOneWriter : Prop :=
  ∀ s t : State, step s = .next t →
    (s.rstTrig = false → t.rstTrig = true → s.st = .armed) ∧
    (s.done = false → t.done = true → s.st = .restoreIdle) ∧
    (t.status ≠ s.status → t.status ≠ .ok → s.st = .restoreIdle) ∧
    (t.tag ≠ s.tag → t.tag ≠ zeroTag → s.st = .extract) ∧
    (t.buf ≠ s.buf → t.buf ≠ [] → s.st = .captureSync ∨ s.st = .captureCopy) ∧
    (s.inited = false → t.inited = true → s.st = .idle ∧ s.inputs.cmd = 0b01 ∧ s.inputs.hwReset = false) ∧
    (s.inited = true → t.inited = false → s.inputs.hwReset = true)

/-- R171 (b) to (f), R25, R26: every step keeps the sequencer's invariants. -/
def Obligations.StepKeepsSequencerInvariants : Prop :=
  ∀ s t : State, SeqInv s → step s = .next t → SeqInv t

/-- R23, R131, R171 (g): every step keeps the capture's invariants. -/
def Obligations.StepKeepsCaptureInvariants : Prop :=
  ∀ s t : State, CaptureInv s → step s = .next t → CaptureInv t

/-- R115, R159: every step keeps it that a tag is delivered only from a frame that passed all four checks, and is its payload. -/
def Obligations.StepKeepsDeliveredTagsValid : Prop :=
  ∀ s t : State, ResultInv s → step s = .next t → ResultInv t

/-- R33, R171: the state after reset meets all the invariants, whatever the open parameters are. -/
def Obligations.ResetMeetsTheInvariants : Prop := Inv State.reset

/-- R11: the step is total: every state, with whatever the environment's move is, has a successor. So has every operation of the table executed alone,
where what a row of another format than STATE means alone is the model's reading (notes/assumptions/2.md, 10.md, 11.md). -/
def Obligations.EveryStateAndEveryOperationHasASuccessor : Prop :=
  (∀ s : State, ∃ t : State, step s = .next t) ∧ ∀ (i : Instr) (s : State), ∃ t : State, exec i s = .next t

/-- R50, R54: every operation keeps the canonical form of the frame buffer, from any state that has it. The form is the model's
(notes/assumptions/9.md). -/
def Obligations.EveryOperationKeepsTheBufferCanonical : Prop :=
  ∀ (i : Instr) (s t : State), s.buf.wf = true → exec i s = .next t → t.buf.wf = true

/-- R11, R58, R60: the registers after a step depend on the registers, the parameters and the ports only; `rx_data` counts only while
`rx_count > 0`. -/
def Obligations.NextRegistersDependOnRegistersAndPorts : Prop :=
  ∀ s u s' : State, s.registers = u.registers → s.params = u.params →
    s.inputs.hwReset = u.inputs.hwReset → s.inputs.cmd = u.inputs.cmd → s.inputs.tir = u.inputs.tir →
    s.inputs.rxCount = u.inputs.rxCount → (s.inputs.rxCount ≠ 0 → s.inputs.rxData = u.inputs.rxData) →
    step s = .next s' → ∃ u' : State, step u = .next u' ∧ u'.registers = s'.registers

/-- R156: AWAIT_PRESENCE entered with the timer at 0 lasts until the timer has counted to SETTLE_TICKS: while no hardware reset comes, after `k` steps
the machine is still in it, with the timer `k` further and every other register as before. The clauses on the cycle counter and the script are about the
model's own fields (notes/assumptions/19.md, 3.md). -/
def Obligations.SettleDelayCountsUpToSettleTicks : Prop :=
  ∀ (k : Nat) (s : State), s.st = .awaitPresence → s.tmr.toNat + k ≤ s.params.settleTicks.toNat →
    (∀ j : Nat, j < k → (s.moveAt j).hwReset = false) →
    ∃ t : State, Host.Core.run Sys2Proof.core k s = .next t ∧ t.registers = { s.registers with tmr := s.tmr + BitVec.ofNat 32 k } ∧
      t.params = s.params ∧ t.cycle = s.cycle + k ∧ t.script = s.script.drop k

/-- R134, R232: where the environment brings nothing for as long, FLUSH discards a queue of `k` bytes in `k` steps and leaves for VALIDATE in the next,
with every other register as before. -/
def Obligations.FlushEndsOnAQuietTransport : Prop :=
  ∀ (k : Nat) (s : State), s.st = .flush → s.queue.length = k → (∀ j : Nat, j ≤ k → isQuiet (s.moveAt j) = true) →
    ∃ t : State, Host.Core.run Sys2Proof.core (k + 1) s = .next t ∧
      t.registers = { s.registers with st := .validate } ∧ t.queue = []

/-- R136 (fourth row), R132, R133: a queue that begins with a start marker, fourteen bytes that are no end marker, and an end marker is captured
whole in sixteen steps: `len` is 16, the buffer holds the sixteen bytes in order, and FLUSH follows. -/
def Obligations.CleanFrameIsCapturedInSixteenSteps : Prop :=
  ∀ (s : State) (frame rest : List Byte), s.st = .captureSync → s.queue = frame ++ rest → frame.length = 16 →
    frame[0]? = some 0x02 → frame[15]? = some 0x03 → (∀ i : Nat, 1 ≤ i → i ≤ 14 → frame[i]? ≠ some 0x03) →
    (∀ j : Nat, j < 16 → isQuiet (s.moveAt j) = true) →
    ∃ t : State, Host.Core.run Sys2Proof.core 16 s = .next t ∧ t.st = .flush ∧ t.len = 16 ∧ t.queue = rest ∧
      (∀ i : Nat, i < 16 → some (t.buf.readByte i) = frame[i]?) ∧
      t.tag = s.tag ∧ t.tmr = s.tmr ∧ t.res = s.res ∧ t.status = s.status ∧ t.done = s.done ∧ t.inited = s.inited ∧
      t.rstTrig = s.rstTrig ∧ ∀ a : Nat, 16 ≤ a → t.buf.readByte a = s.buf.readByte a


/-- R174, R191, R172: a READ accepted in cycle 0, no hardware reset, and the tag absent in the sampling cycle `SETTLE_TICKS + 2`: after
`SETTLE_TICKS + 4` steps the outcome NoTag is committed, the line is back at the idle level, nothing was captured and no tag is delivered. -/
def Obligations.NoTagIsReportedSettleTicksPlusFourStepsAfterRead : Prop :=
  ∀ s : State, s.st = .idle → s.inited = true → (s.moveAt 0).cmd = 0b10 →
    (∀ j : Nat, j < s.params.settleTicks.toNat + 4 → (s.moveAt j).hwReset = false) →
    (s.moveAt (s.params.settleTicks.toNat + 2)).tir = false →
    ∃ t : State, Host.Core.run Sys2Proof.core (s.params.settleTicks.toNat + 4) s = .next t ∧
      t.registers =
        ⟨.idle, [], 0, #v[0, 0, 0, 0, 0, 0, 0, 0, 0, 0], s.params.settleTicks, .noTag, .noTag, true, true, false⟩

/-- R174, R192, R172: a READ accepted in cycle 0, the tag present in the sampling cycle, and a transport that holds fewer bytes than the threshold and
gets none: after `SETTLE_TICKS + TIMEOUT_TICKS + 5` steps the outcome Timeout is committed, the line is back at the idle level, and the queue is as it
was. -/
def Obligations.TimeoutIsReportedAfterTheLastPoll : Prop :=
  ∀ s : State, s.st = .idle → s.inited = true → (s.moveAt 0).cmd = 0b10 →
    (∀ j : Nat, j < s.params.settleTicks.toNat + s.params.timeoutTicks.toNat + 5 → isQuiet (s.moveAt j) = true) →
    (s.moveAt (s.params.settleTicks.toNat + 2)).tir = true → s.queue.length < s.params.readyThreshold.toNat →
    ∃ t : State,
      Host.Core.run Sys2Proof.core (s.params.settleTicks.toNat + s.params.timeoutTicks.toNat + 5) s = .next t ∧
      t.registers =
        ⟨.idle, [], 0, #v[0, 0, 0, 0, 0, 0, 0, 0, 0, 0], s.params.timeoutTicks, .timeout, .timeout, true, true, false⟩ ∧
      t.queue = s.queue
end

