-- ==== Sys2Proof/Laws/Memory.lean ====
section
/-! SUPPORT. The laws of the frame buffer: a read after a write, the canonical form under every operation, and a frame as one number. -/

namespace Sys2Proof.Machine

@[simp] theorem Memory.readByte_nil (a : Nat) : Memory.readByte [] a = Config.unlistedByte := rfl

theorem Memory.readByte_cons (b : Nat) (v : Byte) (t : Memory) (a : Nat) :
    Memory.readByte ((b, v) :: t) a = if b = a then v else Memory.readByte t a := rfl

theorem Memory.readByte_setByte (m : Memory) (a : Nat) (v : Byte) (x : Nat) :
    Memory.readByte (Memory.setByte m a v) x = if a = x then v else Memory.readByte m x := by
  induction m with
  | nil => rfl
  | cons c t ih =>
    obtain ⟨b, w⟩ := c
    simp only [Memory.setByte]
    split
    · rfl
    · split
      · next h => subst h; simp only [Memory.readByte_cons]; split <;> rfl
      · next h => simp only [Memory.readByte_cons, ih]; split <;> split <;> simp_all

theorem Memory.readByte_dropByte (m : Memory) (a x : Nat) :
    Memory.readByte (Memory.dropByte m a) x = if a = x then Config.unlistedByte else Memory.readByte m x := by
  induction m with
  | nil => simp [Memory.dropByte]
  | cons c t ih =>
    obtain ⟨b, w⟩ := c
    simp only [Memory.dropByte]
    split
    · next h => subst h; simp only [ih, Memory.readByte_cons]; split <;> simp_all
    · next h => simp only [Memory.readByte_cons, ih]; split <;> split <;> simp_all

/-- A read after a write: the byte written at its offset, every other offset as before. -/
theorem Memory.readByte_writeByte (m : Memory) (a : Nat) (v : Byte) (x : Nat) :
    Memory.readByte (Memory.writeByte m a v) x = if a = x then v else Memory.readByte m x := by
  unfold Memory.writeByte
  split
  · next h => rw [Memory.readByte_dropByte, h]
  · exact Memory.readByte_setByte m a v x

@[simp] theorem Memory.readByte_writeByte_same (m : Memory) (a : Nat) (v : Byte) :
    Memory.readByte (Memory.writeByte m a v) a = v := by simp [Memory.readByte_writeByte]

theorem Memory.readByte_writeByte_of_ne (m : Memory) (a : Nat) (v : Byte) (x : Nat) (h : x ≠ a) :
    Memory.readByte (Memory.writeByte m a v) x = Memory.readByte m x := by
  simp [Memory.readByte_writeByte, Ne.symm h]

theorem Memory.risingFrom_mono (m : Memory) : ∀ lo lo' : Nat, lo' ≤ lo → Memory.risingFrom lo m = true →
    Memory.risingFrom lo' m = true := by
  induction m with
  | nil => intros; rfl
  | cons c t _ =>
    obtain ⟨b, w⟩ := c
    intro lo lo' hle h
    simp only [Memory.risingFrom, Bool.and_eq_true, decide_eq_true_eq] at h ⊢
    exact ⟨by omega, h.2⟩

theorem Memory.risingFrom_setByte (m : Memory) (a : Nat) (v : Byte) : ∀ lo : Nat, lo ≤ a →
    Memory.risingFrom lo m = true → Memory.risingFrom lo (Memory.setByte m a v) = true := by
  induction m with
  | nil => intro lo hlo _; simp [Memory.setByte, Memory.risingFrom, hlo]
  | cons c t ih =>
    obtain ⟨b, w⟩ := c
    intro lo hlo h
    simp only [Memory.risingFrom, Bool.and_eq_true, decide_eq_true_eq] at h
    simp only [Memory.setByte]
    split
    · next hab =>
      simp only [Memory.risingFrom, Bool.and_eq_true, decide_eq_true_eq]
      exact ⟨hlo, by omega, h.2⟩
    · split
      · next hba => subst hba; simp only [Memory.risingFrom, Bool.and_eq_true, decide_eq_true_eq]; exact ⟨hlo, h.2⟩
      · next hab hba =>
        simp only [Memory.risingFrom, Bool.and_eq_true, decide_eq_true_eq]
        exact ⟨h.1, ih (b + 1) (by omega) h.2⟩

theorem Memory.risingFrom_dropByte (m : Memory) (a : Nat) : ∀ lo : Nat,
    Memory.risingFrom lo m = true → Memory.risingFrom lo (Memory.dropByte m a) = true := by
  induction m with
  | nil => intros; rfl
  | cons c t ih =>
    obtain ⟨b, w⟩ := c
    intro lo h
    simp only [Memory.risingFrom, Bool.and_eq_true, decide_eq_true_eq] at h
    simp only [Memory.dropByte]
    split
    · exact Memory.risingFrom_mono _ (b + 1) lo (by omega) (ih (b + 1) h.2)
    · simp only [Memory.risingFrom, Bool.and_eq_true, decide_eq_true_eq]
      exact ⟨h.1, ih (b + 1) h.2⟩

theorem Memory.mem_setByte (m : Memory) (a : Nat) (v : Byte) (c : Host.Cell) (h : c ∈ Memory.setByte m a v) :
    c = (a, v) ∨ c ∈ m := by
  induction m with
  | nil => simpa [Memory.setByte] using h
  | cons d t ih =>
    obtain ⟨b, w⟩ := d
    simp only [Memory.setByte] at h
    split at h
    · simpa using h
    · split at h
      · rcases List.mem_cons.mp h with h | h
        · exact .inl h
        · exact .inr (List.mem_cons_of_mem _ h)
      · rcases List.mem_cons.mp h with h | h
        · exact .inr (h ▸ List.mem_cons_self)
        · exact (ih h).imp id (List.mem_cons_of_mem _)

theorem Memory.mem_dropByte (m : Memory) (a : Nat) (c : Host.Cell) (h : c ∈ Memory.dropByte m a) : c ∈ m := by
  induction m with
  | nil => exact h
  | cons d t ih =>
    obtain ⟨b, w⟩ := d
    simp only [Memory.dropByte] at h
    split at h
    · exact List.mem_cons_of_mem _ (ih h)
    · rcases List.mem_cons.mp h with h | h
      · exact h ▸ List.mem_cons_self
      · exact List.mem_cons_of_mem _ (ih h)

@[simp] theorem Memory.wf_nil : Memory.wf [] = true := rfl

/-- The buffer of the reset state has the canonical form. -/
theorem State.reset_buf_wf : Memory.wf State.reset.buf = true := rfl

/-- A write within the buffer keeps the canonical form. -/
theorem Memory.wf_writeByte (m : Memory) (a : Nat) (v : Byte) (ha : a < Config.frameLen) (h : Memory.wf m = true) :
    Memory.wf (Memory.writeByte m a v) = true := by
  simp only [Memory.wf, Bool.and_eq_true, List.all_eq_true, decide_eq_true_eq, bne_iff_ne] at h ⊢
  unfold Memory.writeByte
  split
  · exact ⟨Memory.risingFrom_dropByte m a 0 h.1, fun c hc => h.2 c (Memory.mem_dropByte m a c hc)⟩
  · next hv =>
    refine ⟨Memory.risingFrom_setByte m a v 0 (Nat.zero_le _) h.1, fun c hc => ?_⟩
    rcases Memory.mem_setByte m a v c hc with rfl | hc
    · exact ⟨ha, hv⟩
    · exact h.2 c hc

theorem Memory.store_of_lt (m : Memory) (a : Nat) (v : Byte) (h : a < 16) : Memory.store m a v = Memory.writeByte m a v := if_pos h

theorem Memory.store_of_ge (m : Memory) (a : Nat) (v : Byte) (h : 16 ≤ a) : Memory.store m a v = m := if_neg (Nat.not_lt.mpr h)

/-- The capture's store keeps the canonical form at every offset. -/
theorem Memory.wf_store (m : Memory) (a : Nat) (v : Byte) (h : Memory.wf m = true) : Memory.wf (Memory.store m a v) = true := by
  unfold Memory.store
  split
  · next ha => exact Memory.wf_writeByte m a v ha h
  · exact h

/-- A frame stored in the buffer has the canonical form. -/
theorem Memory.wf_ofFrame (f : Frame) : Memory.wf (Memory.ofFrame f) = true := by
  have key : ∀ (l : List Nat) (m : Memory), (∀ i ∈ l, i < Config.frameLen) → Memory.wf m = true →
      Memory.wf (l.foldl (fun m i => Memory.writeByte m i (frameByte f i)) m) = true := by
    intro l
    induction l with
    | nil => intro m _ h; exact h
    | cons i l ih =>
      intro m hl h
      exact ih _ (fun j hj => hl j (List.mem_cons_of_mem _ hj)) (Memory.wf_writeByte m i _ (hl i List.mem_cons_self) h)
  exact key _ [] (fun i hi => List.mem_range.mp hi) rfl

/-- A frame stored in the buffer reads back byte by byte. -/
theorem Memory.readByte_ofFrame (f : Frame) (i : Nat) (hi : i < Config.frameLen) :
    Memory.readByte (Memory.ofFrame f) i = frameByte f i := by
  have key : ∀ (l : List Nat) (m : Memory), i ∈ l ∨ Memory.readByte m i = frameByte f i →
      Memory.readByte (l.foldl (fun m i => Memory.writeByte m i (frameByte f i)) m) i = frameByte f i := by
    intro l
    induction l with
    | nil => intro m h; simpa using h
    | cons j l ih =>
      intro m h
      apply ih
      by_cases hj : j = i
      · exact .inr (by simp [hj])
      · refine h.imp (fun hm => ?_) (fun hm => ?_)
        · rcases List.mem_cons.mp hm with rfl | hm
          · exact absurd rfl hj
          · exact hm
        · rw [Memory.readByte_writeByte_of_ne _ _ _ _ (Ne.symm hj)]; exact hm
  exact key _ _ (.inl (List.mem_range.mpr hi))

theorem extract_append_low (w : Nat) (x : BitVec w) (y : Byte) : (x ++ y).extractLsb' 0 8 = y := by
  apply BitVec.eq_of_getLsbD_eq
  intro j hj
  simp [BitVec.getLsbD_append, hj]

theorem extract_append_high (w k : Nat) (x : BitVec w) (y : Byte) :
    (x ++ y).extractLsb' (k + 8) 8 = x.extractLsb' k 8 := by
  apply BitVec.eq_of_getLsbD_eq
  intro j hj
  simp only [BitVec.getLsbD_extractLsb', BitVec.getLsbD_append, hj, decide_true, Bool.true_and]
  rw [if_neg (show ¬ k + 8 + j < 8 by omega), show k + 8 + j - 8 = k + j by omega]

/-- Sixteen bytes joined into one number read back byte by byte (R71). -/
theorem frameByte_frameOfBytes (b : Nat → Byte) (i : Nat) (hi : i < Config.frameLen) :
    frameByte (frameOfBytes b) i = b i := by
  simp only [Config.frameLen] at hi
  have : i = 0 ∨ i = 1 ∨ i = 2 ∨ i = 3 ∨ i = 4 ∨ i = 5 ∨ i = 6 ∨ i = 7 ∨ i = 8 ∨ i = 9 ∨ i = 10 ∨ i = 11 ∨ i = 12 ∨
      i = 13 ∨ i = 14 ∨ i = 15 := by omega
  rcases this with h | h | h | h | h | h | h | h | h | h | h | h | h | h | h | h <;> subst h <;>
    simp only [frameByte, frameOfBytes, Nat.reduceMul] <;>
    repeat (first | exact extract_append_low _ _ _ | exact BitVec.extractLsb'_eq_self | rw [extract_append_high])

/-- The buffer read whole (R54): its byte at an offset is the byte read at that offset. -/
theorem frameByte_frame (m : Memory) (i : Nat) (hi : i < Config.frameLen) :
    frameByte m.frame i = m.readByte i := frameByte_frameOfBytes _ i hi

end Sys2Proof.Machine
end

