-- ==== Sys2Proof/Laws/State.lean ====
section
/-! SUPPORT. One lemma per field for each named update of the state, so that no later proof unfolds a record update. -/

namespace Sys2Proof.Machine

/-! ### clock -/

@[simp] theorem State.clock_st (pop uartBegin : Bool) (s : State) : (State.clock pop uartBegin s).st = s.st := rfl
@[simp] theorem State.clock_buf (pop uartBegin : Bool) (s : State) : (State.clock pop uartBegin s).buf = s.buf := rfl
@[simp] theorem State.clock_len (pop uartBegin : Bool) (s : State) : (State.clock pop uartBegin s).len = s.len := rfl
@[simp] theorem State.clock_tag (pop uartBegin : Bool) (s : State) : (State.clock pop uartBegin s).tag = s.tag := rfl
@[simp] theorem State.clock_tmr (pop uartBegin : Bool) (s : State) : (State.clock pop uartBegin s).tmr = s.tmr := rfl
@[simp] theorem State.clock_res (pop uartBegin : Bool) (s : State) : (State.clock pop uartBegin s).res = s.res := rfl
@[simp] theorem State.clock_status (pop uartBegin : Bool) (s : State) : (State.clock pop uartBegin s).status = s.status := rfl
@[simp] theorem State.clock_done (pop uartBegin : Bool) (s : State) : (State.clock pop uartBegin s).done = s.done := rfl
@[simp] theorem State.clock_inited (pop uartBegin : Bool) (s : State) : (State.clock pop uartBegin s).inited = s.inited := rfl
@[simp] theorem State.clock_rstTrig (pop uartBegin : Bool) (s : State) : (State.clock pop uartBegin s).rstTrig = s.rstTrig := rfl
@[simp] theorem State.clock_params (pop uartBegin : Bool) (s : State) : (State.clock pop uartBegin s).params = s.params := rfl
@[simp] theorem State.clock_queue (pop uartBegin : Bool) (s : State) : (State.clock pop uartBegin s).queue = transportEdge s.move pop uartBegin s.queue := rfl
@[simp] theorem State.clock_script (pop uartBegin : Bool) (s : State) : (State.clock pop uartBegin s).script = s.script.tail := rfl
@[simp] theorem State.clock_cycle (pop uartBegin : Bool) (s : State) : (State.clock pop uartBegin s).cycle = s.cycle + 1 := rfl
@[simp] theorem State.clock_codec (pop uartBegin : Bool) (s : State) : (State.clock pop uartBegin s).codec = s.codec := rfl

/-! ### capture -/

@[simp] theorem State.capture_st (c : Byte) (s : State) : (s.capture c).st = s.st := rfl
@[simp] theorem State.capture_buf (c : Byte) (s : State) : (s.capture c).buf = s.buf.store s.len.toNat c := rfl
@[simp] theorem State.capture_len (c : Byte) (s : State) : (s.capture c).len = countByte c s.len := rfl
@[simp] theorem State.capture_tag (c : Byte) (s : State) : (s.capture c).tag = s.tag := rfl
@[simp] theorem State.capture_tmr (c : Byte) (s : State) : (s.capture c).tmr = s.tmr := rfl
@[simp] theorem State.capture_res (c : Byte) (s : State) : (s.capture c).res = s.res := rfl
@[simp] theorem State.capture_status (c : Byte) (s : State) : (s.capture c).status = s.status := rfl
@[simp] theorem State.capture_done (c : Byte) (s : State) : (s.capture c).done = s.done := rfl
@[simp] theorem State.capture_inited (c : Byte) (s : State) : (s.capture c).inited = s.inited := rfl
@[simp] theorem State.capture_rstTrig (c : Byte) (s : State) : (s.capture c).rstTrig = s.rstTrig := rfl
@[simp] theorem State.capture_params (c : Byte) (s : State) : (s.capture c).params = s.params := rfl
@[simp] theorem State.capture_queue (c : Byte) (s : State) : (s.capture c).queue = s.queue := rfl
@[simp] theorem State.capture_script (c : Byte) (s : State) : (s.capture c).script = s.script := rfl
@[simp] theorem State.capture_cycle (c : Byte) (s : State) : (s.capture c).cycle = s.cycle := rfl
@[simp] theorem State.capture_codec (c : Byte) (s : State) : (s.capture c).codec = s.codec := rfl

/-! ### clearResults -/

@[simp] theorem State.clearResults_st (s : State) : (s.clearResults).st = s.st := rfl
@[simp] theorem State.clearResults_buf (s : State) : (s.clearResults).buf = [] := rfl
@[simp] theorem State.clearResults_len (s : State) : (s.clearResults).len = 0 := rfl
@[simp] theorem State.clearResults_tag (s : State) : (s.clearResults).tag = zeroTag := rfl
@[simp] theorem State.clearResults_tmr (s : State) : (s.clearResults).tmr = s.tmr := rfl
@[simp] theorem State.clearResults_res (s : State) : (s.clearResults).res = .ok := rfl
@[simp] theorem State.clearResults_status (s : State) : (s.clearResults).status = .ok := rfl
@[simp] theorem State.clearResults_done (s : State) : (s.clearResults).done = false := rfl
@[simp] theorem State.clearResults_inited (s : State) : (s.clearResults).inited = s.inited := rfl
@[simp] theorem State.clearResults_rstTrig (s : State) : (s.clearResults).rstTrig = s.rstTrig := rfl
@[simp] theorem State.clearResults_params (s : State) : (s.clearResults).params = s.params := rfl
@[simp] theorem State.clearResults_queue (s : State) : (s.clearResults).queue = s.queue := rfl
@[simp] theorem State.clearResults_script (s : State) : (s.clearResults).script = s.script := rfl
@[simp] theorem State.clearResults_cycle (s : State) : (s.clearResults).cycle = s.cycle := rfl
@[simp] theorem State.clearResults_codec (s : State) : (s.clearResults).codec = s.codec := rfl

/-! ### hardReset -/

@[simp] theorem State.hardReset_st (s : State) : (s.hardReset).st = .idle := rfl
@[simp] theorem State.hardReset_buf (s : State) : (s.hardReset).buf = [] := rfl
@[simp] theorem State.hardReset_len (s : State) : (s.hardReset).len = 0 := rfl
@[simp] theorem State.hardReset_tag (s : State) : (s.hardReset).tag = zeroTag := rfl
@[simp] theorem State.hardReset_tmr (s : State) : (s.hardReset).tmr = 0 := rfl
@[simp] theorem State.hardReset_res (s : State) : (s.hardReset).res = .ok := rfl
@[simp] theorem State.hardReset_status (s : State) : (s.hardReset).status = .ok := rfl
@[simp] theorem State.hardReset_done (s : State) : (s.hardReset).done = false := rfl
@[simp] theorem State.hardReset_inited (s : State) : (s.hardReset).inited = false := rfl
@[simp] theorem State.hardReset_rstTrig (s : State) : (s.hardReset).rstTrig = false := rfl
@[simp] theorem State.hardReset_params (s : State) : (s.hardReset).params = s.params := rfl
@[simp] theorem State.hardReset_queue (s : State) : (s.hardReset).queue = s.queue := rfl
@[simp] theorem State.hardReset_script (s : State) : (s.hardReset).script = s.script := rfl
@[simp] theorem State.hardReset_cycle (s : State) : (s.hardReset).cycle = s.cycle := rfl
@[simp] theorem State.hardReset_codec (s : State) : (s.hardReset).codec = s.codec := rfl

/-! ### raise -/

@[simp] theorem State.raise_st (r : ResultCode) (s : State) : (State.raise r s).st = .restoreIdle := rfl
@[simp] theorem State.raise_buf (r : ResultCode) (s : State) : (State.raise r s).buf = s.buf := rfl
@[simp] theorem State.raise_len (r : ResultCode) (s : State) : (State.raise r s).len = s.len := rfl
@[simp] theorem State.raise_tag (r : ResultCode) (s : State) : (State.raise r s).tag = s.tag := rfl
@[simp] theorem State.raise_tmr (r : ResultCode) (s : State) : (State.raise r s).tmr = s.tmr := rfl
@[simp] theorem State.raise_res (r : ResultCode) (s : State) : (State.raise r s).res = r := rfl
@[simp] theorem State.raise_status (r : ResultCode) (s : State) : (State.raise r s).status = s.status := rfl
@[simp] theorem State.raise_done (r : ResultCode) (s : State) : (State.raise r s).done = s.done := rfl
@[simp] theorem State.raise_inited (r : ResultCode) (s : State) : (State.raise r s).inited = s.inited := rfl
@[simp] theorem State.raise_rstTrig (r : ResultCode) (s : State) : (State.raise r s).rstTrig = s.rstTrig := rfl
@[simp] theorem State.raise_params (r : ResultCode) (s : State) : (State.raise r s).params = s.params := rfl
@[simp] theorem State.raise_queue (r : ResultCode) (s : State) : (State.raise r s).queue = s.queue := rfl
@[simp] theorem State.raise_script (r : ResultCode) (s : State) : (State.raise r s).script = s.script := rfl
@[simp] theorem State.raise_cycle (r : ResultCode) (s : State) : (State.raise r s).cycle = s.cycle := rfl
@[simp] theorem State.raise_codec (r : ResultCode) (s : State) : (State.raise r s).codec = s.codec := rfl

/-! ### returnToIdle -/

@[simp] theorem State.returnToIdle_st (s : State) : (s.returnToIdle).st = .idle := rfl
@[simp] theorem State.returnToIdle_buf (s : State) : (s.returnToIdle).buf = s.buf := rfl
@[simp] theorem State.returnToIdle_len (s : State) : (s.returnToIdle).len = s.len := rfl
@[simp] theorem State.returnToIdle_tag (s : State) : (s.returnToIdle).tag = s.tag := rfl
@[simp] theorem State.returnToIdle_tmr (s : State) : (s.returnToIdle).tmr = s.tmr := rfl
@[simp] theorem State.returnToIdle_res (s : State) : (s.returnToIdle).res = s.res := rfl
@[simp] theorem State.returnToIdle_status (s : State) : (s.returnToIdle).status = s.res := rfl
@[simp] theorem State.returnToIdle_done (s : State) : (s.returnToIdle).done = true := rfl
@[simp] theorem State.returnToIdle_inited (s : State) : (s.returnToIdle).inited = s.inited := rfl
@[simp] theorem State.returnToIdle_rstTrig (s : State) : (s.returnToIdle).rstTrig = false := rfl
@[simp] theorem State.returnToIdle_params (s : State) : (s.returnToIdle).params = s.params := rfl
@[simp] theorem State.returnToIdle_queue (s : State) : (s.returnToIdle).queue = s.queue := rfl
@[simp] theorem State.returnToIdle_script (s : State) : (s.returnToIdle).script = s.script := rfl
@[simp] theorem State.returnToIdle_cycle (s : State) : (s.returnToIdle).cycle = s.cycle := rfl
@[simp] theorem State.returnToIdle_codec (s : State) : (s.returnToIdle).codec = s.codec := rfl

end Sys2Proof.Machine
end

