-- ==== Sys2Proof/Laws/Cycles.lean ====
section
/-! SUPPORT. For each shared operation one lemma that says once everything it can do, if it answers a next state; and what it leaves of the
environment, the parameters and the model's own fields. -/

namespace Sys2Proof.Machine

@[simp] theorem State.rxHead_nil (s : State) (h : s.queue = []) : s.rxHead = none := by simp [State.rxHead, h]

@[simp] theorem State.rxHead_cons (s : State) (c : Byte) (q : List Byte) (h : s.queue = c :: q) : s.rxHead = some c := by
  simp [State.rxHead, h]

/-- `Pop()` yields a byte exactly where `rx_count > 0` (R55, R57). -/
theorem rxCountOf_eq_zero (q : List Byte) : rxCountOf q = 0 ↔ q = [] := by
  cases q with
  | nil => simp [rxCountOf]
  | cons c q =>
    simp only [rxCountOf, List.length_cons, reduceCtorEq, iff_false]
    intro h
    have := congrArg BitVec.toNat h
    simp only [BitVec.toNat_ofNat, BitVec.ofNat_eq_ofNat] at this
    omega

/-- Saturation does not hide that a threshold of at most 255 is met (R58). -/
theorem rxCountOf_toNat (q : List Byte) : (rxCountOf q).toNat = min q.length 255 := by
  simp only [rxCountOf, BitVec.toNat_ofNat]
  omega

/-- The count is `len + 1` wherever that fits the register (R133). -/
theorem countByte_of_lt (c : Byte) (l : BitVec 5) (h : l.toNat < 31) : countByte c l = l + 1 := if_pos (by omega)

/-- A capture counter below 31 counts on without wrapping (R23, R81). -/
theorem len_add_one (l : BitVec 5) (h : l.toNat < 31) : (l + 1).toNat = l.toNat + 1 := by
  rw [BitVec.toNat_add]; simp; omega

/-- The capture at an offset of the buffer (R133). -/
theorem State.capture_of_lt (c : Byte) (s : State) (h : s.len.toNat < 16) :
    s.capture c = { s with buf := s.buf.writeByte s.len.toNat c, len := s.len + 1 } := by
  simp only [State.capture, Memory.store_of_lt _ _ _ h, countByte_of_lt c s.len (by omega)]

/-- The capture at an offset that does not exist (R10): nothing is stored. -/
theorem State.capture_of_ge (c : Byte) (s : State) (h : 16 ≤ s.len.toNat) :
    s.capture c = { s with len := countByte c s.len } := by
  simp only [State.capture, Memory.store_of_ge _ _ _ h]

theorem idleCycle_cases (c : BitVec 2) (s t : State) (h : idleCycle c s = .next t) :
    (c = 0b01 ∧ t = State.clock false true { s.clearResults with inited := true, rstTrig := false, st := .idle }) ∨
    (c = 0b10 ∧ s.inited = true ∧ t = State.clock false false { s.clearResults with st := .armed }) ∨
    (c ≠ 0b01 ∧ (c = 0b10 → s.inited = false) ∧ t = State.clock false false s) := by
  have hc : c = 0 ∨ c = 1 ∨ c = 2 ∨ c = 3 := by clear h; revert c; decide
  rcases hc with rfl | rfl | rfl | rfl
  · exact .inr (.inr ⟨by decide, fun hc => absurd hc (by decide), by injection h with h; exact h.symm⟩)
  · exact .inl ⟨rfl, by injection h with h; exact h.symm⟩
  · cases hi : s.inited with
    | true =>
      simp only [idleCycle, BitVec.reduceToNat, hi, if_true] at h
      exact .inr (.inl ⟨rfl, rfl, by injection h with h; exact h.symm⟩)
    | false =>
      simp only [idleCycle, BitVec.reduceToNat, hi, Bool.false_eq_true, if_false] at h
      exact .inr (.inr ⟨by decide, fun _ => rfl, by injection h with h; exact h.symm⟩)
  · exact .inr (.inr ⟨by decide, fun hc => absurd hc (by decide), by injection h with h; exact h.symm⟩)

theorem awaitPresenceCycle_cases (tir : Bool) (s t : State) (h : awaitPresenceCycle tir s = .next t) :
    (s.tmr.toNat < s.params.settleTicks.toNat ∧
      t = State.clock false false { s with tmr := s.tmr + 1, st := .awaitPresence }) ∨
    (s.params.settleTicks.toNat ≤ s.tmr.toNat ∧ tir = false ∧ t = State.clock false false (s.raise .noTag)) ∨
    (s.params.settleTicks.toNat ≤ s.tmr.toNat ∧ tir = true ∧
      t = State.clock false false { s with tmr := 0, st := .awaitFrame }) := by
  simp only [awaitPresenceCycle, settling, decide_eq_true_eq] at h
  split at h
  · next hs => exact .inl ⟨hs, by injection h with h; exact h.symm⟩
  · next hs =>
    cases tir
    · exact .inr (.inl ⟨by omega, rfl, by injection h with h; exact h.symm⟩)
    · exact .inr (.inr ⟨by omega, rfl, by injection h with h; exact h.symm⟩)

theorem awaitFrameCycle_cases (n : BitVec 8) (s t : State) (h : awaitFrameCycle n s = .next t) :
    (s.params.readyThreshold.toNat ≤ n.toNat ∧ t = State.clock false false { s with st := .captureSync }) ∨
    (n.toNat < s.params.readyThreshold.toNat ∧ s.params.timeoutTicks.toNat ≤ s.tmr.toNat ∧
      t = State.clock false false (s.raise .timeout)) ∨
    (n.toNat < s.params.readyThreshold.toNat ∧ s.tmr.toNat < s.params.timeoutTicks.toNat ∧
      t = State.clock false false { s with tmr := s.tmr + 1, st := .awaitFrame }) := by
  simp only [awaitFrameCycle, enoughBytes, deadlinePassed, decide_eq_true_eq] at h
  split at h
  · next he => exact .inl ⟨he, by injection h with h; exact h.symm⟩
  · next he =>
    split at h
    · next hd => exact .inr (.inl ⟨by omega, hd, by injection h with h; exact h.symm⟩)
    · next hd => exact .inr (.inr ⟨by omega, by omega, by injection h with h; exact h.symm⟩)

theorem captureSyncCycle_cases (o : Option Byte) (s t : State) (h : captureSyncCycle o s = .next t) :
    (o = none ∧ t = State.clock false false { s with st := .flush }) ∨
    (o = some 0x02 ∧ t = State.clock true false { s with buf := s.buf.writeByte 0 0x02, len := 1, st := .captureCopy }) ∨
    (∃ c, o = some c ∧ c ≠ 0x02 ∧ t = State.clock true false { s with st := .captureSync }) := by
  cases o with
  | none => exact .inl ⟨rfl, by injection h with h; exact h.symm⟩
  | some c =>
    simp only [captureSyncCycle, isStx, Config.stx, beq_iff_eq] at h
    split at h
    · next hc => subst hc; exact .inr (.inl ⟨rfl, by injection h with h; exact h.symm⟩)
    · next hc => exact .inr (.inr ⟨c, rfl, hc, by injection h with h; exact h.symm⟩)

theorem captureCopyCycle_cases (o : Option Byte) (s t : State) (h : captureCopyCycle o s = .next t) :
    (o = none ∧ t = State.clock false false { s with st := .flush }) ∨
    (∃ c, o = some c ∧
      t = State.clock true false { s.capture c with
        st := if isEtx c || s.len.toNat + 1 == 16 then .flush else .captureCopy }) := by
  cases o with
  | none => exact .inl ⟨rfl, by injection h with h; exact h.symm⟩
  | some c =>
    exact .inr ⟨c, rfl, by injection h with h; exact h.symm⟩

theorem flushCycle_cases (o : Option Byte) (s t : State) (h : flushCycle o s = .next t) :
    (o = none ∧ t = State.clock false false { s with st := .validate }) ∨
    (∃ c, o = some c ∧ t = State.clock true false { s with st := .flush }) := by
  cases o with
  | none => exact .inl ⟨rfl, by injection h with h; exact h.symm⟩
  | some c => exact .inr ⟨c, rfl, by injection h with h; exact h.symm⟩

theorem validateCycle_cases (b : Nat → Byte) (s t : State) (h : validateCycle b s = .next t) :
    (validateFrame b (lenOperand s.len) = .ok ∧ t = State.clock false false { s with st := .extract }) ∨
    (∃ r, validateFrame b (lenOperand s.len) = r ∧ r ≠ .ok ∧ t = State.clock false false (s.raise r)) := by
  simp only [validateCycle] at h
  split at h
  · next hv => exact .inl ⟨hv, by injection h with h; exact h.symm⟩
  · next r hv => exact .inr ⟨_, rfl, hv, by injection h with h; exact h.symm⟩

/-- A clock cycle that answers a next state moves the environment by one edge and leaves the parameters and the codec's result lines. -/
theorem stateCycle_environment (c : BitVec 2) (o : Option Byte) (b : Nat → Byte) (s t : State)
    (h : stateCycle c o b s = .next t) :
    t.script = s.script.tail ∧ t.cycle = s.cycle + 1 ∧ t.params = s.params ∧ t.codec = s.codec := by
  simp only [stateCycle] at h
  split at h
  · rcases idleCycle_cases _ _ _ h with ⟨_, rfl⟩ | ⟨_, _, rfl⟩ | ⟨_, _, rfl⟩ <;> exact ⟨rfl, rfl, rfl, rfl⟩
  · injection h with h; subst h; exact ⟨rfl, rfl, rfl, rfl⟩
  · rcases awaitPresenceCycle_cases _ _ _ h with ⟨_, rfl⟩ | ⟨_, _, rfl⟩ | ⟨_, _, rfl⟩ <;> exact ⟨rfl, rfl, rfl, rfl⟩
  · rcases awaitFrameCycle_cases _ _ _ h with ⟨_, rfl⟩ | ⟨_, _, rfl⟩ | ⟨_, _, rfl⟩ <;> exact ⟨rfl, rfl, rfl, rfl⟩
  · rcases captureSyncCycle_cases _ _ _ h with ⟨_, rfl⟩ | ⟨_, rfl⟩ | ⟨_, _, _, rfl⟩ <;> exact ⟨rfl, rfl, rfl, rfl⟩
  · rcases captureCopyCycle_cases _ _ _ h with ⟨_, rfl⟩ | ⟨_, _, rfl⟩ <;> exact ⟨rfl, rfl, rfl, rfl⟩
  · rcases flushCycle_cases _ _ _ h with ⟨_, rfl⟩ | ⟨_, _, rfl⟩ <;> exact ⟨rfl, rfl, rfl, rfl⟩
  · rcases validateCycle_cases _ _ _ h with ⟨_, rfl⟩ | ⟨_, _, _, rfl⟩ <;> exact ⟨rfl, rfl, rfl, rfl⟩
  · injection h with h; subst h; exact ⟨rfl, rfl, rfl, rfl⟩
  · injection h with h; subst h; exact ⟨rfl, rfl, rfl, rfl⟩

/-- Every operation on the buffer that a clock cycle performs keeps its canonical form. -/
theorem stateCycle_wf (c : BitVec 2) (o : Option Byte) (b : Nat → Byte) (s t : State)
    (h : stateCycle c o b s = .next t) (hw : s.buf.wf = true) : t.buf.wf = true := by
  simp only [stateCycle] at h
  split at h
  · rcases idleCycle_cases _ _ _ h with ⟨_, rfl⟩ | ⟨_, _, rfl⟩ | ⟨_, _, rfl⟩ <;> first | exact hw | rfl
  · injection h with h; subst h; exact hw
  · rcases awaitPresenceCycle_cases _ _ _ h with ⟨_, rfl⟩ | ⟨_, _, rfl⟩ | ⟨_, _, rfl⟩ <;> exact hw
  · rcases awaitFrameCycle_cases _ _ _ h with ⟨_, rfl⟩ | ⟨_, _, rfl⟩ | ⟨_, _, rfl⟩ <;> exact hw
  · rcases captureSyncCycle_cases _ _ _ h with ⟨_, rfl⟩ | ⟨_, rfl⟩ | ⟨_, _, _, rfl⟩
    · exact hw
    · exact Memory.wf_writeByte s.buf 0 0x02 (by decide) hw
    · exact hw
  · rcases captureCopyCycle_cases _ _ _ h with ⟨_, rfl⟩ | ⟨_, _, rfl⟩
    · exact hw
    · exact Memory.wf_store _ _ _ hw
  · rcases flushCycle_cases _ _ _ h with ⟨_, rfl⟩ | ⟨_, _, rfl⟩ <;> exact hw
  · rcases validateCycle_cases _ _ _ h with ⟨_, rfl⟩ | ⟨_, _, _, rfl⟩ <;> exact hw
  · injection h with h; subst h; exact hw
  · injection h with h; subst h; exact hw

end Sys2Proof.Machine
end

