-- ==== Sys2Proof/Laws/Dispatch.lean ====
section
/-! SUPPORT. Which shared clock cycle an operation of a whole format is, and what the verdict looks at. -/

namespace Sys2Proof.Machine

/-- Every operation of format RXBYTE is the clock cycle with its byte at the head of the transport (R73). -/
theorem exec_of_rxByte (i : Instr) (c : Byte) (s : State) (h : i.rxByte? = some c) : exec i s = byteCycle c s := by
  cases i <;> cases h <;> rfl

/-- Every operation of format CMD is the clock cycle with its code on `cmd` (R72). -/
theorem exec_decodeCmd (c : BitVec 2) (s : State) : exec (decodeCmd c) s = commandCycle c s := by
  have : c = 0 ∨ c = 1 ∨ c = 2 ∨ c = 3 := by revert c; decide
  rcases this with rfl | rfl | rfl | rfl <;> rfl

/-- The verdict looks at the sixteen offsets of the buffer only (R115, R50). -/
theorem validateFrame_congr (b b' : Nat → Byte) (n : BitVec 8) (h : ∀ i, i < 16 → b i = b' i) :
    validateFrame b n = validateFrame b' n := by
  have h0 : chkStx b = chkStx b' := by unfold chkStx; rw [h 0 (by decide)]
  have h1 : chkTrailer b = chkTrailer b' := by
    unfold chkTrailer; rw [h 13 (by decide), h 14 (by decide), h 15 (by decide)]
  have h2 : chkSum b = chkSum b' := by
    simp only [chkSum, checksum, sentChecksum]
    rw [h 1 (by decide), h 2 (by decide), h 3 (by decide), h 4 (by decide), h 5 (by decide), h 6 (by decide),
      h 7 (by decide), h 8 (by decide), h 9 (by decide), h 10 (by decide), h 11 (by decide), h 12 (by decide)]
  simp only [validateFrame, h0, h1, h2]

/-- The clock cycle of VALIDATE looks at the sixteen offsets of the buffer only. -/
theorem validateCycle_congr (b b' : Nat → Byte) (s : State) (h : ∀ i, i < 16 → b i = b' i) :
    validateCycle b s = validateCycle b' s := by
  simp only [validateCycle, validateFrame_congr b b' _ h]

/-- The copy at an offset of the buffer (R133). -/
theorem captureCopyCycle_store (s : State) (c : Byte) (h : s.len.toNat < 16) :
    captureCopyCycle (some c) s = .next (State.clock true false
      { s with
        buf := s.buf.writeByte s.len.toNat c
        len := s.len + 1
        st := if c = 0x03 ∨ s.len.toNat + 1 = 16 then .flush else .captureCopy }) := by
  simp only [captureCopyCycle, State.capture_of_lt c s h, isEtx, Config.etx, Config.frameLen, Bool.or_eq_true, beq_iff_eq]

/-- The copy at an offset that does not exist (R10, R11): nothing is stored. -/
theorem captureCopyCycle_past (s : State) (c : Byte) (h : 16 ≤ s.len.toNat) :
    captureCopyCycle (some c) s = .next (State.clock true false
      { s with len := countByte c s.len, st := if c = 0x03 then .flush else .captureCopy }) := by
  have : ¬ s.len.toNat + 1 = 16 := by omega
  simp only [captureCopyCycle, State.capture_of_ge c s h, isEtx, Config.etx, Config.frameLen, Bool.or_eq_true, beq_iff_eq,
    this, or_false]

end Sys2Proof.Machine
end

