-- ==== Sys2Proof/Laws/PerInstr.lean ====
section
/-! SUPPORT. Facts of every operation as syntax, one lemma per constructor of `Instr`. -/

namespace Sys2Proof.Laws.EncodesInItsFormat

/-- The format of a row of spec/opcode_table.json, by its name in the table. -/
def formatOf : Sys2Proof.Instr → String
  | .nop | .init | .read | .cmdRsvd => "CMD"
  | .stx | .etx | .lf | .cr => "RXBYTE"
  | .hex0 | .hex1 | .hex2 | .hex3 | .hex4 | .hex5 | .hex6 | .hex7 | .hex8 | .hex9 => "RXBYTE"
  | .hexA | .hexB | .hexC | .hexD | .hexE | .hexF | .other _ => "RXBYTE"
  | .hexval _ | .bcdbyte _ _ | .checksum _ | .validateFrame _ _ => "FUNC"
  | .frameOk _ => "FRAME"
  | .sIdle | .sArmed | .sAwaitPresence | .sAwaitFrame | .sCaptureSync | .sCaptureCopy | .sFlush | .sValidate => "STATE"
  | .sExtract | .sRestoreIdle => "STATE"
  | .ok | .noTag | .timeout | .tooShort | .badFraming | .badChecksum => "STATUS"

/-- The format of an operation word. -/
def formatOfWord : Sys2Proof.OpWord → String
  | .cmd _ => "CMD"
  | .rxbyte _ => "RXBYTE"
  | .frame _ => "FRAME"
  | .state _ => "STATE"
  | .status _ => "STATUS"
  | .hexval _ | .bcdByte _ _ | .checksum _ | .validateFrame _ _ => "FUNC"

/-- An operation's word is of the format its row has, and a received byte's word is its byte. -/
def Statement (i : Sys2Proof.Instr) : Prop :=
  formatOfWord (Sys2Proof.encode i) = formatOf i ∧
    ∀ b, i.rxByte? = some b → Sys2Proof.encode i = .rxbyte b

theorem nop : Statement (.nop) := ⟨rfl, fun _ h => by cases h⟩

theorem init : Statement (.init) := ⟨rfl, fun _ h => by cases h⟩

theorem read : Statement (.read) := ⟨rfl, fun _ h => by cases h⟩

theorem cmdRsvd : Statement (.cmdRsvd) := ⟨rfl, fun _ h => by cases h⟩

theorem stx : Statement (.stx) := ⟨rfl, fun _ h => by cases h; rfl⟩

theorem etx : Statement (.etx) := ⟨rfl, fun _ h => by cases h; rfl⟩

theorem lf : Statement (.lf) := ⟨rfl, fun _ h => by cases h; rfl⟩

theorem cr : Statement (.cr) := ⟨rfl, fun _ h => by cases h; rfl⟩

theorem hex0 : Statement (.hex0) := ⟨rfl, fun _ h => by cases h; rfl⟩

theorem hex1 : Statement (.hex1) := ⟨rfl, fun _ h => by cases h; rfl⟩

theorem hex2 : Statement (.hex2) := ⟨rfl, fun _ h => by cases h; rfl⟩

theorem hex3 : Statement (.hex3) := ⟨rfl, fun _ h => by cases h; rfl⟩

theorem hex4 : Statement (.hex4) := ⟨rfl, fun _ h => by cases h; rfl⟩

theorem hex5 : Statement (.hex5) := ⟨rfl, fun _ h => by cases h; rfl⟩

theorem hex6 : Statement (.hex6) := ⟨rfl, fun _ h => by cases h; rfl⟩

theorem hex7 : Statement (.hex7) := ⟨rfl, fun _ h => by cases h; rfl⟩

theorem hex8 : Statement (.hex8) := ⟨rfl, fun _ h => by cases h; rfl⟩

theorem hex9 : Statement (.hex9) := ⟨rfl, fun _ h => by cases h; rfl⟩

theorem hexA : Statement (.hexA) := ⟨rfl, fun _ h => by cases h; rfl⟩

theorem hexB : Statement (.hexB) := ⟨rfl, fun _ h => by cases h; rfl⟩

theorem hexC : Statement (.hexC) := ⟨rfl, fun _ h => by cases h; rfl⟩

theorem hexD : Statement (.hexD) := ⟨rfl, fun _ h => by cases h; rfl⟩

theorem hexE : Statement (.hexE) := ⟨rfl, fun _ h => by cases h; rfl⟩

theorem hexF : Statement (.hexF) := ⟨rfl, fun _ h => by cases h; rfl⟩

theorem other (b : Sys2Proof.Byte) : Statement (.other b) := ⟨rfl, fun _ h => by cases h; rfl⟩

theorem hexval (b : Sys2Proof.Byte) : Statement (.hexval b) := ⟨rfl, fun _ h => by cases h⟩

theorem bcdbyte (hi : Sys2Proof.Byte) (lo : Sys2Proof.Byte) : Statement (.bcdbyte hi lo) := ⟨rfl, fun _ h => by cases h⟩

theorem checksum (f : Sys2Proof.Frame) : Statement (.checksum f) := ⟨rfl, fun _ h => by cases h⟩

theorem validateFrame (f : Sys2Proof.Frame) (length : Sys2Proof.Byte) : Statement (.validateFrame f length) := ⟨rfl, fun _ h => by cases h⟩

theorem frameOk (f : Sys2Proof.Frame) : Statement (.frameOk f) := ⟨rfl, fun _ h => by cases h⟩

theorem sIdle : Statement (.sIdle) := ⟨rfl, fun _ h => by cases h⟩

theorem sArmed : Statement (.sArmed) := ⟨rfl, fun _ h => by cases h⟩

theorem sAwaitPresence : Statement (.sAwaitPresence) := ⟨rfl, fun _ h => by cases h⟩

theorem sAwaitFrame : Statement (.sAwaitFrame) := ⟨rfl, fun _ h => by cases h⟩

theorem sCaptureSync : Statement (.sCaptureSync) := ⟨rfl, fun _ h => by cases h⟩

theorem sCaptureCopy : Statement (.sCaptureCopy) := ⟨rfl, fun _ h => by cases h⟩

theorem sFlush : Statement (.sFlush) := ⟨rfl, fun _ h => by cases h⟩

theorem sValidate : Statement (.sValidate) := ⟨rfl, fun _ h => by cases h⟩

theorem sExtract : Statement (.sExtract) := ⟨rfl, fun _ h => by cases h⟩

theorem sRestoreIdle : Statement (.sRestoreIdle) := ⟨rfl, fun _ h => by cases h⟩

theorem ok : Statement (.ok) := ⟨rfl, fun _ h => by cases h⟩

theorem noTag : Statement (.noTag) := ⟨rfl, fun _ h => by cases h⟩

theorem timeout : Statement (.timeout) := ⟨rfl, fun _ h => by cases h⟩

theorem tooShort : Statement (.tooShort) := ⟨rfl, fun _ h => by cases h⟩

theorem badFraming : Statement (.badFraming) := ⟨rfl, fun _ h => by cases h⟩

theorem badChecksum : Statement (.badChecksum) := ⟨rfl, fun _ h => by cases h⟩

end Sys2Proof.Laws.EncodesInItsFormat
end

