-- ==== Sys2Proof/Laws/Step.lean ====
section
/-! SUPPORT. What a step can do: hardware reset, or the clock cycle of the state the sequencer is in. -/

namespace Sys2Proof.Machine

/-- Every state of the sequencer has a code that decodes to its operation (R21, R76). -/
@[simp] theorem decode_fetchWord (s : State) : decode s.fetchWord = .ok s.st.instr := by
  cases h : s.st <;> simp only [State.fetchWord, h] <;> rfl

/-- An operation of format STATE is the clock cycle of its state, where the sequencer is in it. -/
theorem exec_state_eq_stateCycle (s : State) :
    exec s.st.instr s = stateCycle s.inputs.cmd s.rxHead s.buf.readByte s := by
  cases h : s.st <;> simp only [St.instr, exec, stateCycle, h] <;> rfl

/-- A step is hardware reset, or the clock cycle of the state. -/
theorem step_eq (s : State) :
    step s = if s.inputs.hwReset then .next (State.clock false false s.hardReset)
      else stateCycle s.inputs.cmd s.rxHead s.buf.readByte s := by
  simp only [step, decode_fetchWord, exec_state_eq_stateCycle]

theorem step_cases (s t : State) (h : step s = .next t) :
    (s.inputs.hwReset = true ∧ t = State.clock false false s.hardReset) ∨
    (s.inputs.hwReset = false ∧ stateCycle s.inputs.cmd s.rxHead s.buf.readByte s = .next t) := by
  rw [step_eq] at h
  split at h
  · next hr => exact .inl ⟨hr, by injection h with h; exact h.symm⟩
  · next hr => exact .inr ⟨by simpa using hr, h⟩

/-- What a step does to the ten registers, once: hardware reset, or the row of the state's rule (R151 to R160, R132 to R134). -/
theorem step_registers (s t : State) (h : step s = .next t) :
    (s.inputs.hwReset = true ∧ t.registers = State.reset.registers) ∨
    (s.inputs.hwReset = false ∧
      ((s.st = .idle ∧
          ((s.inputs.cmd = 0b01 ∧
              t.registers = { s.clearResults with inited := true, rstTrig := false, st := .idle : State }.registers) ∨
            (s.inited = true ∧ t.registers = { s.clearResults with st := .armed : State }.registers) ∨
            t.registers = s.registers)) ∨
        (s.st = .armed ∧ t.registers = { s with rstTrig := true, tmr := 0, st := .awaitPresence : State }.registers) ∨
        (s.st = .awaitPresence ∧
          ((s.tmr.toNat < s.params.settleTicks.toNat ∧
              t.registers = { s with tmr := s.tmr + 1, st := .awaitPresence : State }.registers) ∨
            t.registers = (s.raise .noTag).registers ∨
            t.registers = { s with tmr := 0, st := .awaitFrame : State }.registers)) ∨
        (s.st = .awaitFrame ∧
          ((s.tmr.toNat < s.params.timeoutTicks.toNat ∧
              t.registers = { s with tmr := s.tmr + 1, st := .awaitFrame : State }.registers) ∨
            t.registers = (s.raise .timeout).registers ∨
            t.registers = { s with st := .captureSync : State }.registers)) ∨
        (s.st = .captureSync ∧
          (t.registers = { s with st := .flush : State }.registers ∨
            t.registers = { s with buf := s.buf.writeByte 0 0x02, len := 1, st := .captureCopy : State }.registers ∨
            t.registers = { s with st := .captureSync : State }.registers)) ∨
        (s.st = .captureCopy ∧
          (t.registers = { s with st := .flush : State }.registers ∨
            ∃ c, t.registers = { s.capture c with
                st := if isEtx c || s.len.toNat + 1 == 16 then .flush else .captureCopy : State }.registers)) ∨
        (s.st = .flush ∧
          (t.registers = { s with st := .flush : State }.registers ∨
            t.registers = { s with st := .validate : State }.registers)) ∨
        (s.st = .validate ∧
          ((s.frameValid ∧ t.registers = { s with st := .extract : State }.registers) ∨
            ∃ r, r ≠ .ok ∧ t.registers = (s.raise r).registers)) ∨
        (s.st = .extract ∧ t.registers = (State.raise .ok { s with tag := tagOfBytes s.buf.readByte }).registers) ∨
        (s.st = .restoreIdle ∧ t.registers = s.returnToIdle.registers))) := by
  rcases step_cases s t h with ⟨hr, rfl⟩ | ⟨hr, h⟩
  · exact .inl ⟨hr, rfl⟩
  refine .inr ⟨hr, ?_⟩
  simp only [stateCycle] at h
  cases hst : s.st <;> simp only [hst] at h <;> simp only [reduceCtorEq, false_and, true_and, false_or, or_false]
  · rcases idleCycle_cases _ _ _ h with ⟨hc, rfl⟩ | ⟨_, hi, rfl⟩ | ⟨_, _, rfl⟩
    · exact .inl ⟨hc, rfl⟩
    · exact .inr (.inl ⟨hi, rfl⟩)
    · exact .inr (.inr rfl)
  · injection h with h; subst h; rfl
  · rcases awaitPresenceCycle_cases _ _ _ h with ⟨h1, rfl⟩ | ⟨_, _, rfl⟩ | ⟨_, _, rfl⟩
    · exact .inl ⟨h1, rfl⟩
    · exact .inr (.inl rfl)
    · exact .inr (.inr rfl)
  · rcases awaitFrameCycle_cases _ _ _ h with ⟨_, rfl⟩ | ⟨_, _, rfl⟩ | ⟨_, h1, rfl⟩
    · exact .inr (.inr rfl)
    · exact .inr (.inl rfl)
    · exact .inl ⟨h1, rfl⟩
  · rcases captureSyncCycle_cases _ _ _ h with ⟨ho, rfl⟩ | ⟨ho, rfl⟩ | ⟨_, ho, _, rfl⟩
    · exact .inl rfl
    · exact .inr (.inl rfl)
    · exact .inr (.inr rfl)
  · rcases captureCopyCycle_cases _ _ _ h with ⟨ho, rfl⟩ | ⟨c, ho, rfl⟩
    · exact .inl rfl
    · exact .inr ⟨c, rfl⟩
  · rcases flushCycle_cases _ _ _ h with ⟨ho, rfl⟩ | ⟨_, ho, rfl⟩
    · exact .inr rfl
    · exact .inl rfl
  · rcases validateCycle_cases _ _ _ h with ⟨hv, rfl⟩ | ⟨r, _, hr, rfl⟩
    · exact .inl ⟨hv, rfl⟩
    · exact .inr ⟨r, hr, rfl⟩
  · injection h with h; subst h; rfl
  · injection h with h; subst h; rfl

/-- One step of a longer run. -/
theorem run_succ (k : Nat) (s t : Sys2Proof.core.State) (h : Sys2Proof.core.step s = .next t) :
    Host.Core.run Sys2Proof.core (k + 1) s = Host.Core.run Sys2Proof.core k t := by
  simp only [Host.Core.run, h]

/-- The move of this cycle is the first of the moves to come. -/
theorem State.moveAt_zero (s : State) : s.moveAt 0 = s.move := by
  cases h : s.script <;> simp [State.moveAt, State.move, h]

/-- A state one edge later sees the moves to come one earlier. -/
theorem State.moveAt_succ (s t : State) (j : Nat) (h1 : t.script = s.script.tail) (h2 : t.cycle = s.cycle + 1) :
    t.moveAt j = s.moveAt (j + 1) := by
  simp only [State.moveAt, h1, h2, List.drop_tail]
  rw [show s.cycle + 1 + j = s.cycle + (j + 1) by omega]

end Sys2Proof.Machine
end

