-- ==== Sys2Proof/Machine/Stimulus.lean ====
section
/-! DEFINITION. The stimulus notation of the spec (spec/30_encoding.md R82): a bench that drives the machine against the reference environment. A
scenario is a list of lines executed top to bottom. -/

namespace Sys2Proof.Machine

/-- What an EXPECT line may ask of the registers and outputs at the start of the next cycle (R82). -/
inductive Check where
  | st (x : St)
  | idle (v : Bool)
  | inited (v : Bool)
  | done (v : Bool)
  | status (x : ResultCode)
  | res (x : ResultCode)
  | tag (v : BitVec 80)
  | len (n : Nat)
  | tmr (n : Nat)
  | rstTrig (v : Bool)
  | rstPin (v : Bool)
  | rstOe (v : Bool)
  | buf (f : Frame)
  | queue (q : List Byte)
deriving DecidableEq, Repr

/-- The lines of the notation (R82). -/
inductive Line where
  /-- `PARAM SETTLE_TICKS=n` -/
  | paramSettle (n : Nat)
  /-- `PARAM TIMEOUT_TICKS=n` -/
  | paramTimeout (n : Nat)
  /-- `PARAM READY_THRESHOLD=n` -/
  | paramReady (n : Nat)
  /-- `PARAM RST_IDLE_LEVEL=n` -/
  | paramIdleLevel (n : Nat)
  /-- `RESET`: one cycle with `hw_reset = 1` -/
  | reset
  /-- `INIT`: one cycle with `cmd = 0b01` -/
  | init
  /-- `READ`: one cycle with `cmd = 0b10` -/
  | read
  /-- `RSVD`: one cycle with `cmd = 0b11` -/
  | rsvd
  /-- `TICK n`: `n` cycles with `cmd = 0b00` -/
  | tick (n : Nat)
  /-- `TIR v`: `tir` is `v` from the next cycle on -/
  | tir (v : Bool)
  /-- `RX b b ...`: these bytes are at the tail of the queue in the next cycle -/
  | rx (bytes : List Byte)
  /-- `RUN`: cycles with `cmd = 0b00` until a cycle begins with `done = 1` -/
  | run
  /-- `EXPECT name=value ...` -/
  | expect (checks : List Check)
deriving DecidableEq, Repr

/-- The bench: the machine and the level it holds on `tir`. -/
structure Bench where
  state : State
  tir : Bool
deriving DecidableEq, Repr

/-- Does a check hold at the start of the next cycle. -/
def Check.holds (s : State) : Check → Bool
  | .st x => s.st == x
  | .idle v => s.outputs.idle == v
  | .inited v => s.outputs.inited == v
  | .done v => s.outputs.done == v
  | .status x => s.outputs.status == x.code
  | .res x => s.res == x
  | .tag v => s.outputs.tag == v
  | .len n => s.len.toNat == n
  | .tmr n => s.tmr.toNat == n
  | .rstTrig v => s.rstTrig == v
  | .rstPin v => s.outputs.rstPin == v
  | .rstOe v => s.outputs.rstOe == v
  | .buf f => s.buf.frame == f
  | .queue q => s.queue == q

/-- One clock cycle of the reference environment (R82): the held `tir`, no arrivals but those an RX line put into the queue, and a queue that
`uart_begin` leaves as it is (R59). -/
def Bench.cycle (hwReset : Bool) (cmd : BitVec 2) (b : Bench) : Option Bench :=
  let move : EnvMove :=
    { hwReset := hwReset, cmd := cmd, tir := b.tir, idleData := (Config.freeMove b.state.cycle).idleData
      arrivals := [], restart := none, overflow := none }
  match step { b.state with script := [move] } with
  | .next s => some { b with state := s }
  | .fault _ => none
  | .refused _ => none

/-- `n` cycles with `cmd = 0b00`. -/
def Bench.ticks : Nat → Bench → Option Bench
  | 0, b => some b
  | n + 1, b => (b.cycle false 0b00).bind (Bench.ticks n)

/-- Cycles with `cmd = 0b00` until a cycle begins with `done = 1`, at most `fuel` of them: that a cycle ends is no axiom (R232). -/
def Bench.runUntilDone : Nat → Bench → Option Bench
  | 0, b => if b.state.outputs.done then some b else none
  | n + 1, b => if b.state.outputs.done then some b else (b.cycle false 0b00).bind (Bench.runUntilDone n)

/-- A PARAM line: the instance is refused outside the bounds of R7. -/
def Bench.instantiate (settle timeout ready idleLevel : Nat) (b : Bench) : Option Bench :=
  (Params.instantiate settle timeout ready idleLevel).map fun p => { b with state := { b.state with params := p } }

/-- One line; `none` where an EXPECT fails, a PARAM is refused, a RUN does not end within the fuel, or the machine stops. -/
def Bench.line (fuel : Nat) (b : Bench) : Line → Option Bench
  | .paramSettle n =>
    let p := b.state.params
    b.instantiate n p.timeoutTicks.toNat p.readyThreshold.toNat p.rstIdleLevel.toNat
  | .paramTimeout n =>
    let p := b.state.params
    b.instantiate p.settleTicks.toNat n p.readyThreshold.toNat p.rstIdleLevel.toNat
  | .paramReady n =>
    let p := b.state.params
    b.instantiate p.settleTicks.toNat p.timeoutTicks.toNat n p.rstIdleLevel.toNat
  | .paramIdleLevel n =>
    let p := b.state.params
    b.instantiate p.settleTicks.toNat p.timeoutTicks.toNat p.readyThreshold.toNat n
  | .reset => b.cycle true 0b00
  | .init => b.cycle false 0b01
  | .read => b.cycle false 0b10
  | .rsvd => b.cycle false 0b11
  | .tick n => b.ticks n
  | .tir v => some { b with tir := v }
  | .rx bytes => some { b with state := { b.state with queue := b.state.queue ++ bytes } }
  | .run => b.runUntilDone fuel
  | .expect checks => if checks.all (Check.holds b.state) then some b else none

/-- A scenario, top to bottom. -/
def Bench.scenario (fuel : Nat) (b : Bench) : List Line → Option Bench
  | [] => some b
  | l :: rest => (b.line fuel l).bind fun b' => Bench.scenario fuel b' rest

end Sys2Proof.Machine
end

