-- ==== Sys2Proof/Tests/Slice0.lean ====
section
/-! SUPPORT. The model's own tests. The expected results are the spec's: the tables of spec/30_encoding.md and the vectors V1 to V8 of
spec/95_test_vectors.md; and for each statement with hypotheses a concrete state that meets them. -/

namespace Sys2Proof.Tests

open Sys2Proof.Machine

/-! ### Small states -/

/-- The frame GOOD of spec/95_test_vectors.md, offset 15 first. -/
def good : Frame := 0x030A0D39383938373635343332313002

/-- The frame GOOD as the bytes received, offset 0 first. -/
def goodBytes : List Byte := (List.range 16).map (frameByte good)

/-- A quiet move of the environment with a given command and level of `tir`. -/
def move (cmd : BitVec 2) (tir : Bool) : EnvMove := ⟨false, cmd, tir, 0x00, [], none, none⟩

/-- A state with `SETTLE_TICKS` = 3, `TIMEOUT_TICKS` = 4, `READY_THRESHOLD` = 16, after an INIT, with a script of one move. -/
def at_ (st : St) (queue : List Byte) (m : EnvMove := move 0b00 false) : State :=
  { State.reset with st := st, queue := queue, inited := true, params := ⟨3, 4, 16, true⟩, script := [m] }

/-- A field of the next state, where there is one. -/
def field (f : State → α) : Answer → Option α
  | .next s => some (f s)
  | .fault _ => none
  | .refused _ => none

/-- The fields the capture writes, and the queue. -/
structure Captured where
  st : St
  len : Nat
  queue : List Byte
  buf : Memory
deriving DecidableEq, Repr

/-- The fields the capture writes, and the queue. -/
def captureFields (s : State) : Captured := ⟨s.st, s.len.toNat, s.queue, s.buf⟩

/-! ### Well-formedness -/

/-- An OTHER that carries a digit is refused (R73). -/
theorem test_wellFormed_refuses_other_digit : (Instr.other 0x30).wellFormed = false := by decide

/-- An OTHER that carries a sentinel is refused (R73). -/
theorem test_wellFormed_refuses_other_sentinel : (Instr.other 0x02).wellFormed = false := by decide

/-- A FRAME_OK whose sentinels are not in place is refused (R71). -/
theorem test_wellFormed_refuses_frame : (Instr.frameOk 0).wellFormed = false := by decide

/-- OTHER with a lower-case letter and FRAME_OK with GOOD are well formed (R79 (b), R71). -/
theorem test_wellFormed_accepts : (Instr.other 0x61).wellFormed = true ∧ (Instr.frameOk good).wellFormed = true := by decide

/-! ### Decoding: the words are written out from spec/30_encoding.md -/

/-- R72. -/
theorem test_decode_cmd :
    decode (.cmd 0b00) = .ok .nop ∧ decode (.cmd 0b01) = .ok .init ∧ decode (.cmd 0b10) = .ok .read ∧
    decode (.cmd 0b11) = .ok .cmdRsvd := by decide

/-- R73: the four sentinels, and bytes of class OTHER just outside the digits. -/
theorem test_decode_sentinels :
    decode (.rxbyte 0b00000010) = .ok .stx ∧ decode (.rxbyte 0b00000011) = .ok .etx ∧
    decode (.rxbyte 0b00001010) = .ok .lf ∧ decode (.rxbyte 0b00001101) = .ok .cr ∧
    decode (.rxbyte 0x2F) = .ok (.other 0x2F) ∧ decode (.rxbyte 0x3A) = .ok (.other 0x3A) ∧
    decode (.rxbyte 0x40) = .ok (.other 0x40) ∧ decode (.rxbyte 0x47) = .ok (.other 0x47) := by decide

/-- R74: the ten decimal digits. -/
theorem test_decode_decimal_digits :
    decode (.rxbyte 0x30) = .ok .hex0 ∧ decode (.rxbyte 0x31) = .ok .hex1 ∧ decode (.rxbyte 0x32) = .ok .hex2 ∧
    decode (.rxbyte 0x33) = .ok .hex3 ∧ decode (.rxbyte 0x34) = .ok .hex4 ∧ decode (.rxbyte 0x35) = .ok .hex5 ∧
    decode (.rxbyte 0x36) = .ok .hex6 ∧ decode (.rxbyte 0x37) = .ok .hex7 ∧ decode (.rxbyte 0x38) = .ok .hex8 ∧
    decode (.rxbyte 0x39) = .ok .hex9 := by decide

/-- R74: the six upper-case letters. -/
theorem test_decode_letter_digits :
    decode (.rxbyte 0x41) = .ok .hexA ∧ decode (.rxbyte 0x42) = .ok .hexB ∧ decode (.rxbyte 0x43) = .ok .hexC ∧
    decode (.rxbyte 0x44) = .ok .hexD ∧ decode (.rxbyte 0x45) = .ok .hexE ∧ decode (.rxbyte 0x46) = .ok .hexF := by decide

/-- R76, R21; the codes 10 to 15 are rejected by name (U6). -/
theorem test_decode_states :
    decode (.state 0) = .ok .sIdle ∧ decode (.state 1) = .ok .sArmed ∧ decode (.state 2) = .ok .sAwaitPresence ∧
    decode (.state 3) = .ok .sAwaitFrame ∧ decode (.state 4) = .ok .sCaptureSync ∧ decode (.state 5) = .ok .sCaptureCopy ∧
    decode (.state 6) = .ok .sFlush ∧ decode (.state 7) = .ok .sValidate ∧ decode (.state 8) = .ok .sExtract ∧
    decode (.state 9) = .ok .sRestoreIdle ∧ decode (.state 10) = .error (.stateCode 10) ∧
    decode (.state 15) = .error (.stateCode 15) := by decide

/-- R75; the codes 6 and 7 are rejected by name (R79 (c)). -/
theorem test_decode_outcomes :
    decode (.status 0) = .ok .ok ∧ decode (.status 1) = .ok .noTag ∧ decode (.status 2) = .ok .timeout ∧
    decode (.status 3) = .ok .tooShort ∧ decode (.status 4) = .ok .badFraming ∧ decode (.status 5) = .ok .badChecksum ∧
    decode (.status 6) = .error (.statusCode 6) ∧ decode (.status 7) = .error (.statusCode 7) := by decide

/-- R71: GOOD is a FRAME_OK; with CR and LF swapped it is not. -/
theorem test_decode_frame :
    decode (.frame 0x030A0D39383938373635343332313002) = .ok (.frameOk good) ∧
    decode (.frame 0x030D0A39383938373635343332313002) =
      .error (.frameSentinels 0x030D0A39383938373635343332313002) := by decide

/-- R70: the codec functions have no bit pattern; their words carry their operands. -/
theorem test_decode_func :
    decode (.hexval 0x41) = .ok (.hexval 0x41) ∧ decode (.bcdByte 0x38 0x39) = .ok (.bcdbyte 0x38 0x39) ∧
    decode (.checksum good) = .ok (.checksum good) ∧ decode (.validateFrame good 16) = .ok (.validateFrame good 16) := by decide

/-- The numbers of spec/opcode_table.json (notes/assumptions/1.md). -/
theorem test_decodeTableWord :
    decodeTableWord 8 0x02 = some .read ∧ decodeTableWord 8 0x09 = some .sRestoreIdle ∧ decodeTableWord 8 0x46 = some .hexF ∧
    decodeTableWord 128 0x030A0D39383938373635343332313002 = some (.frameOk good) ∧ decodeTableWord 8 0x100 = none := by decide

/-! ### Codec: V1, V2, V3, V4 -/

/-- V1: the boundary bytes. -/
theorem test_hexval :
    field State.codec (exec (.hexval 0x2F) (at_ .idle [])) = some 0 ∧
    field State.codec (exec (.hexval 0x39) (at_ .idle [])) = some 9 ∧
    field State.codec (exec (.hexval 0x46) (at_ .idle [])) = some 15 ∧
    field State.codec (exec (.hexval 0x61) (at_ .idle [])) = some 0 := by decide

/-- V2. -/
theorem test_bcdbyte :
    field State.codec (exec (.bcdbyte 0x44 0x45) (at_ .idle [])) = some 0xDE ∧
    field State.codec (exec (.bcdbyte 0x31 0x67) (at_ .idle [])) = some 0x10 ∧
    field State.codec (exec (.bcdbyte 0x46 0x00) (at_ .idle [])) = some 0xF0 := by decide

/-- V3: "0123456789" folds to 89, "DEADBEEF42" to 60. -/
theorem test_checksum :
    field State.codec (exec (.checksum good) (at_ .idle [])) = some 0x89 ∧
    field State.codec (exec (.checksum 0x030A0D30363234464545424441454402) (at_ .idle [])) = some 0x60 := by decide

/-- V4: GOOD at length 16, 15 and 17; offset 13 changed to 0A; the checksum 30 36 the source prints. -/
theorem test_validateFrame :
    field State.codec (exec (.validateFrame good 16) (at_ .idle [])) = some 0 ∧
    field State.codec (exec (.validateFrame good 15) (at_ .idle [])) = some 3 ∧
    field State.codec (exec (.validateFrame good 17) (at_ .idle [])) = some 3 ∧
    field State.codec (exec (.validateFrame 0x030A0A39383938373635343332313002 16) (at_ .idle [])) = some 4 ∧
    field State.codec (exec (.validateFrame 0x030A0D36303938373635343332313002 16) (at_ .idle [])) = some 5 := by decide

/-! ### Commands: V6 -/

/-- NOP and the reserved command write nothing. -/
theorem test_nop_rsvd :
    field State.registers (exec .nop { at_ .idle [] with done := true, status := .badChecksum }) =
      some { (at_ .idle []).registers with done := true, status := .badChecksum } ∧
    field State.registers (exec .cmdRsvd { at_ .idle [] with done := true, status := .badChecksum }) =
      some { (at_ .idle []).registers with done := true, status := .badChecksum } := by decide

/-- READ before any INIT writes nothing. -/
theorem test_read_before_init :
    field State.registers (exec .read { at_ .idle [] with inited := false }) =
      some { (at_ .idle []).registers with inited := false } := by decide

/-- READ after an outcome clears it and goes to ARMED. -/
theorem test_read_accepted :
    field State.registers (exec .read { at_ .idle [] with done := true, status := .badChecksum, len := 16, buf := [(0, 2)] }) =
      some { (at_ .idle []).registers with st := .armed } := by decide

/-- INIT clears, and the transport may restart with another queue (R59). -/
theorem test_init :
    field State.inited (exec .init { at_ .idle [] with inited := false }) = some true ∧
    field captureFields (exec .init { at_ .idle [0x30] { move 0b01 false with restart := some [] } with
        inited := false, buf := [(0, 2)] }) =
      some ⟨.idle, 0, [], []⟩ := by decide

/-! ### States: V5, V6 -/

theorem test_sIdle :
    field State.st (exec .sIdle (at_ .idle [] (move 0b10 false))) = some .armed ∧
    field State.st (exec .sIdle (at_ .idle [] (move 0b11 false))) = some .idle := by decide

theorem test_sArmed :
    field (fun s => (s.rstTrig, s.tmr, s.st)) (exec .sArmed { at_ .armed [] with tmr := 7 }) =
      some (true, 0, .awaitPresence) := by decide

/-- `S = 3`: at `tmr = 2` it waits, at `tmr = 3` it samples. -/
theorem test_sAwaitPresence :
    field (fun s => (s.tmr, s.res, s.st)) (exec .sAwaitPresence { at_ .awaitPresence [] with tmr := 2 }) =
      some (3, .ok, .awaitPresence) ∧
    field (fun s => (s.tmr, s.res, s.st)) (exec .sAwaitPresence { at_ .awaitPresence [] with tmr := 3 }) =
      some (3, .noTag, .restoreIdle) ∧
    field (fun s => (s.tmr, s.res, s.st)) (exec .sAwaitPresence { at_ .awaitPresence [] (move 0b00 true) with tmr := 3 }) =
      some (0, .ok, .awaitFrame) := by decide

/-- `TH = 16`, `T = 4`: fifteen bytes wait, then time out; sixteen win over the deadline. -/
theorem test_sAwaitFrame :
    field (fun s => (s.tmr, s.res, s.st)) (exec .sAwaitFrame { at_ .awaitFrame (List.replicate 15 0x30) with tmr := 3 }) =
      some (4, .ok, .awaitFrame) ∧
    field (fun s => (s.tmr, s.res, s.st)) (exec .sAwaitFrame { at_ .awaitFrame (List.replicate 15 0x30) with tmr := 4 }) =
      some (4, .timeout, .restoreIdle) ∧
    field (fun s => (s.tmr, s.res, s.st)) (exec .sAwaitFrame { at_ .awaitFrame (List.replicate 16 0x30) with tmr := 4 }) =
      some (4, .ok, .captureSync) := by decide

theorem test_sCaptureSync :
    field captureFields (exec .sCaptureSync (at_ .captureSync [])) = some ⟨.flush, 0, [], []⟩ ∧
    field captureFields (exec .sCaptureSync (at_ .captureSync [0x03, 0x02])) = some ⟨.captureSync, 0, [0x02], []⟩ ∧
    field captureFields (exec .sCaptureSync (at_ .captureSync [0x02])) = some ⟨.captureCopy, 1, [], [(0, 0x02)]⟩ := by decide

theorem test_sCaptureCopy :
    field captureFields (exec .sCaptureCopy { at_ .captureCopy [] with len := 15 }) = some ⟨.flush, 15, [], []⟩ ∧
    field captureFields (exec .sCaptureCopy { at_ .captureCopy [0x0A, 0x03] with len := 14 }) =
      some ⟨.captureCopy, 15, [0x03], [(14, 0x0A)]⟩ ∧
    field captureFields (exec .sCaptureCopy { at_ .captureCopy [0x41] with len := 15 }) =
      some ⟨.flush, 16, [], [(15, 0x41)]⟩ := by decide

theorem test_sFlush :
    field captureFields (exec .sFlush (at_ .flush [])) = some ⟨.validate, 0, [], []⟩ ∧
    field captureFields (exec .sFlush (at_ .flush [0x02, 0x7E])) = some ⟨.flush, 0, [0x7E], []⟩ := by decide

theorem test_sValidate :
    field (fun s => (s.res, s.st)) (exec .sValidate { at_ .validate [] with buf := Memory.ofFrame good, len := 16 }) =
      some (.ok, .extract) ∧
    field (fun s => (s.res, s.st)) (exec .sValidate { at_ .validate [] with buf := Memory.ofFrame good, len := 15 }) =
      some (.tooShort, .restoreIdle) := by decide

/-- GOOD delivers "0123456789"; on the port, 0x39383736353433323130 (R159). -/
theorem test_sExtract :
    field (fun s => (s.outputs.tag, s.res, s.st)) (exec .sExtract { at_ .extract [] with buf := Memory.ofFrame good }) =
      some (0x39383736353433323130, .ok, .restoreIdle) := by decide

theorem test_sRestoreIdle :
    field (fun s => (s.rstTrig, s.status, s.done, s.st)) (exec .sRestoreIdle { at_ .restoreIdle [] with rstTrig := true, res := .noTag }) =
      some (false, .noTag, true, .idle) := by decide

/-! ### Received bytes: V5. Every class but STX is discarded by the hunt and stored by the copy; ETX ends the copy. -/

/-- The byte of a class is discarded by CAPTURE_SYNC, and stored at offset 1 by CAPTURE_COPY, which goes on. -/
def storedAsData (i : Instr) (c : Byte) : Bool :=
  field captureFields (exec i (at_ .captureSync [c])) == some ⟨.captureSync, 0, [], []⟩ &&
  field captureFields (exec i { at_ .captureCopy [c] with len := 1 }) == some ⟨.captureCopy, 2, [], [(1, c)]⟩

theorem test_lf_cr_other :
    storedAsData .lf 0x0A = true ∧ storedAsData .cr 0x0D = true ∧ storedAsData (.other 0xFF) 0xFF = true := by decide

theorem test_decimal_digits :
    storedAsData .hex0 0x30 = true ∧ storedAsData .hex1 0x31 = true ∧ storedAsData .hex2 0x32 = true ∧
    storedAsData .hex3 0x33 = true ∧ storedAsData .hex4 0x34 = true ∧ storedAsData .hex5 0x35 = true ∧
    storedAsData .hex6 0x36 = true ∧ storedAsData .hex7 0x37 = true ∧ storedAsData .hex8 0x38 = true ∧
    storedAsData .hex9 0x39 = true := by decide

theorem test_letter_digits :
    storedAsData .hexA 0x41 = true ∧ storedAsData .hexB 0x42 = true ∧ storedAsData .hexC 0x43 = true ∧
    storedAsData .hexD 0x44 = true ∧ storedAsData .hexE 0x45 = true ∧ storedAsData .hexF 0x46 = true := by decide

/-- STX starts the copy, and within the copy is data (R137). -/
theorem test_stx :
    field captureFields (exec .stx (at_ .captureSync [0x02])) = some ⟨.captureCopy, 1, [], [(0, 0x02)]⟩ ∧
    field captureFields (exec .stx { at_ .captureCopy [0x02] with len := 1 }) = some ⟨.captureCopy, 2, [], [(1, 0x02)]⟩ := by
  decide

/-- No byte is stored at an offset above 15 (R133); the byte is popped, and the step has a successor (R11). -/
theorem test_no_store_past_the_buffer :
    field captureFields (step { at_ .captureCopy [0x41, 0x42] with len := 16 }) = some ⟨.captureCopy, 17, [0x42], []⟩ ∧
    field State.buf (step { at_ .captureCopy [0x41] with len := 31, buf := [(15, 0x03)] }) = some [(15, 0x03)] := by decide

/-- ETX is discarded by the hunt; the copy stores it and ends. -/
theorem test_etx :
    field captureFields (exec .etx (at_ .captureSync [0x03])) = some ⟨.captureSync, 0, [], []⟩ ∧
    field captureFields (exec .etx { at_ .captureCopy [0x03] with len := 1 }) = some ⟨.flush, 2, [], [(1, 0x03)]⟩ := by decide

/-! ### Frames and outcomes: V6 -/

theorem test_frameOk :
    field (fun s => (s.res, s.st)) (exec (.frameOk good) { at_ .validate [] with len := 16 }) = some (.ok, .extract) ∧
    field (fun s => (s.res, s.st)) (exec (.frameOk 0x030A0D36303938373635343332313002) { at_ .validate [] with len := 16 }) =
      some (.badChecksum, .restoreIdle) := by decide

theorem test_ok :
    field (fun s => (s.outputs.tag, s.res, s.st)) (exec .ok { at_ .extract [] with buf := Memory.ofFrame good }) =
      some (0x39383736353433323130, .ok, .restoreIdle) := by decide

theorem test_error_exits :
    field (fun s => (s.res, s.st)) (exec .noTag (at_ .awaitPresence [])) = some (.noTag, .restoreIdle) ∧
    field (fun s => (s.res, s.st)) (exec .timeout (at_ .awaitFrame [])) = some (.timeout, .restoreIdle) ∧
    field (fun s => (s.res, s.st)) (exec .tooShort (at_ .validate [])) = some (.tooShort, .restoreIdle) ∧
    field (fun s => (s.res, s.st)) (exec .badFraming (at_ .validate [])) = some (.badFraming, .restoreIdle) ∧
    field (fun s => (s.res, s.st)) (exec .badChecksum (at_ .validate [])) = some (.badChecksum, .restoreIdle) := by decide

/-! ### Steps, ports and placement -/

/-- V6: hardware reset overrides the state's rule, and the byte that arrives in that cycle is queued (R221, R56). -/
theorem test_hwReset :
    field (fun s => (s.st, s.inited, s.queue))
      (step { at_ .flush [0x30] { move 0b00 false with hwReset := true, arrivals := [0x31] } with rstTrig := true }) =
      some (.idle, false, [0x30, 0x31]) := by decide

/-- V8. -/
theorem test_outputs :
    (at_ .flush [1, 2, 3]).outputs.rxPop = true ∧
    (at_ .flush [1, 2, 3] { move 0b00 false with hwReset := true }).outputs.rxPop = false ∧
    (at_ .awaitFrame [1, 2, 3] (move 0b01 false)).outputs.rxPop = false ∧
    (at_ .awaitFrame [] (move 0b01 false)).outputs.uartBegin = false ∧
    (at_ .idle [] (move 0b01 false)).outputs.uartBegin = true ∧
    (at_ .idle []).pad = some true ∧ ({ at_ .armed [] with rstTrig := true }).pad = some false := by decide

/-- A word placed for the next step is what the step runs (notes/assumptions/15.md). -/
theorem test_withFetchWord :
    field captureFields (step ((at_ .idle []).withFetchWord 8 0x30)) = some ⟨.captureSync, 0, [], []⟩ ∧
    field State.st (step ((at_ .flush []).withFetchWord 8 0x02)) = some .armed ∧
    field State.st (step ((at_ .idle []).withFetchWord 8 0x09)) = some .idle ∧
    field State.res (step (({ at_ .idle [] with len := 16 }).withFetchWord 128 good.toNat)) = some .ok := by decide

/-- R82, R7: a PARAM outside its bounds is refused; an EXPECT that fails ends the scenario. -/
theorem test_bench :
    (Bench.line 0 ⟨at_ .idle [], false⟩ (.paramReady 0)).isNone = true ∧
    (Bench.line 0 ⟨at_ .idle [], false⟩ (.paramReady 255)).isSome = true ∧
    (Bench.scenario 0 ⟨at_ .idle [], false⟩ [.rx [0x30], .expect [.queue [0x30], .idle true]]).isSome = true ∧
    (Bench.scenario 0 ⟨at_ .idle [], false⟩ [.expect [.done true]]).isNone = true := by decide

/-! ### Witnesses: concrete states and operands that meet the hypotheses of the statements, clause by clause -/

/-- A state with a script of `n` quiet moves whose `k`-th shows a tag. -/
def quiet (st : St) (queue : List Byte) (n k : Nat) : State :=
  { at_ st queue with script := (List.range n).map fun j => move 0b00 (j == k) }

/-- An answer that is a next state. -/
def completes (a : Answer) : Bool := (field (fun _ => ()) a).isSome

/-- A state whose answer is a next state has that next state. -/
theorem next_of_completes (a : Answer) (h : completes a = true) : ∃ t, a = .next t := by
  cases a with
  | next t => exact ⟨t, rfl⟩
  | fault r => cases h
  | refused r => cases h

theorem witness_DecodeOfEncodeIsTheOperation : ∃ i : Instr, i.wellFormed = true ∧ i = .frameOk good := ⟨_, by decide, rfl⟩

theorem witness_EncodeOfDecodeIsTheWord :
    ∃ w i, decode w = .ok i ∧ w = .state 9 := ⟨.state 9, .sRestoreIdle, by decide, rfl⟩

theorem witness_RejectedWordsAreUnusedCodesAndUnmatchedFrames :
    decode (.state 10) = .error (.stateCode 10) ∧ (9 : BitVec 4).toNat < 10 ∧
    decode (.status 6) = .error (.statusCode 6) ∧ (5 : BitVec 3).toNat < 6 ∧
    frameMatches 0x030A0D00000000000000000000000002 = true ∧ frameMatches 0x030A0D00000000000000000000000003 = false := by decide

theorem witness_StepRunsTheOperationAtTheProgramCounter :
    ∃ (s : State) (i : Instr), s.inputs.hwReset = false ∧ decode s.fetchWord = .ok i ∧ i.wellFormed = true :=
  ⟨at_ .armed [], .sArmed, by decide⟩

theorem witness_StepRunsTheInnerOperation :
    (∃ (s : State) (w : OpWord) (i : Instr), s.inputs.hwReset = false ∧ s.innerWord = some w ∧ decode w = .ok i ∧ i = .read) ∧
    (∃ (s : State) (w : OpWord) (i : Instr), s.inputs.hwReset = false ∧ s.innerWord = some w ∧ decode w = .ok i ∧ i = .stx) ∧
    (∃ (s : State) (w : OpWord) (i : Instr), s.inputs.hwReset = false ∧ s.innerWord = some w ∧ decode w = .ok i ∧
      i = .frameOk good) :=
  ⟨⟨at_ .idle [] (move 0b10 false), .cmd 0b10, .read, by decide⟩, ⟨at_ .flush [0x02], .rxbyte 0x02, .stx, by decide⟩,
    ⟨{ at_ .validate [] with buf := Memory.ofFrame good }, .frame good, .frameOk good, by decide⟩⟩

theorem witness_DecidingStepIsTheOutcomeOperation :
    (∃ s : State, s.inputs.hwReset = false ∧ s.st = .awaitPresence ∧ s.params.settleTicks.toNat ≤ s.tmr.toNat ∧
      s.inputs.tir = false) ∧
    (∃ s : State, s.inputs.hwReset = false ∧ s.st = .awaitFrame ∧
      s.inputs.rxCount.toNat < s.params.readyThreshold.toNat ∧ s.params.timeoutTicks.toNat ≤ s.tmr.toNat) ∧
    (∃ s : State, s.inputs.hwReset = false ∧ s.st = .validate ∧
      validateFrame s.buf.readByte (lenOperand s.len) = .badFraming ∧ ResultCode.badFraming ≠ .ok) ∧
    (∃ s : State, s.inputs.hwReset = false ∧ s.st = .extract) :=
  ⟨⟨{ at_ .awaitPresence [] with tmr := 3 }, by decide⟩,
    ⟨{ at_ .awaitFrame (List.replicate 15 0x30) with tmr := 4 }, by decide⟩,
    ⟨{ at_ .validate [] with len := 16 }, by decide⟩, ⟨at_ .extract [], by decide⟩⟩

theorem witness_TableWordRunsInTheNextStep :
    decodeTableWord 8 3 = some .cmdRsvd ∧ decodeTableWord 8 4 = some .sCaptureSync ∧ decodeTableWord 8 10 = some .lf ∧
    decodeTableWord 128 good.toNat = some (.frameOk good) := by decide

theorem witness_HexvalOfDigitsAndOfOtherBytes :
    hexval 0x30 = 0 ∧ hexval 0x39 = 9 ∧ hexval 0x41 = 10 ∧ hexval 0x46 = 15 ∧ hexval 0x3A = 0 ∧ hexval 0x40 = 0 := by decide

theorem witness_NonDigitPacksAsZeroDigit : isDigit 0x2F = false ∧ isDigit 0x61 = false := by decide

theorem witness_ChecksumFoldsTheFivePairsInAnyOrder :
    ∃ (b : Nat → Byte) (pairs : List (Byte × Byte)),
      pairs.Perm [(b 1, b 2), (b 3, b 4), (b 5, b 6), (b 7, b 8), (b 9, b 10)] ∧ b 1 = 0x30 :=
  ⟨frameByte good, _, (List.reverse_perm _), by decide⟩

/-- S6 with the payload "0123456789". -/
theorem witness_FrameOfASenderValidates :
    ∃ b : Nat → Byte, b 0 = 0x02 ∧ b 13 = 0x0D ∧ b 14 = 0x0A ∧ b 15 = 0x03 ∧
      b 11 = hexDigit ((checksum b).extractLsb' 4 4) ∧ b 12 = hexDigit ((checksum b).extractLsb' 0 4) :=
  ⟨frameByte good, by decide⟩

theorem witness_EdgePopsThenAppends :
    (∃ m : EnvMove, m.overflow = none ∧ m.restart = none) ∧
    (∃ (m : EnvMove) (q' : List Byte), m.overflow = none ∧ m.restart = some q') ∧
    (∃ (m : EnvMove) (q' : List Byte), m.overflow = some q') :=
  ⟨⟨move 0 false, by decide⟩, ⟨{ move 0 false with restart := some [0x30] }, [0x30], by decide⟩,
    ⟨{ move 0 false with overflow := some [] }, [], by decide⟩⟩

theorem witness_NopReservedAndEarlyReadWriteNothing : ∃ s : State, s.st = .idle ∧ s.inited = false := ⟨State.reset, rfl, rfl⟩

theorem witness_AcceptedReadClearsAndArms : ∃ s : State, s.st = .idle ∧ s.inited = true := ⟨at_ .idle [], by decide⟩

theorem witness_AcceptedInitWritesTheStartingState : ∃ s : State, s.st = .idle := ⟨State.reset, rfl⟩

theorem witness_CommandsAreIgnoredOutsideIdle : ∃ s : State, s.st ≠ .idle := ⟨at_ .restoreIdle [], by decide⟩

theorem witness_IdleStateExaminesTheCommand :
    (∃ s : State, s.st = .idle ∧ s.inputs.cmd = 0b01) ∧
    (∃ s : State, s.st = .idle ∧ s.inputs.cmd = 0b10 ∧ s.inited = true) ∧
    (∃ s : State, s.st = .idle ∧ s.inputs.cmd = 0b10 ∧ s.inited = false) ∧
    (∃ s : State, s.st = .idle ∧ (s.inputs.cmd = 0b00 ∨ s.inputs.cmd = 0b11)) :=
  ⟨⟨at_ .idle [] (move 0b01 false), by decide⟩, ⟨at_ .idle [] (move 0b10 false), by decide⟩,
    ⟨{ at_ .idle [] (move 0b10 false) with inited := false }, by decide⟩, ⟨at_ .idle [] (move 0b11 false), by decide⟩⟩

theorem witness_AwaitPresenceSettlesThenSamples :
    (∃ s : State, s.tmr.toNat < s.params.settleTicks.toNat) ∧
    (∃ s : State, s.params.settleTicks.toNat ≤ s.tmr.toNat ∧ s.inputs.tir = false) ∧
    (∃ s : State, s.params.settleTicks.toNat ≤ s.tmr.toNat ∧ s.inputs.tir = true) :=
  ⟨⟨{ at_ .awaitPresence [] with tmr := 2 }, by decide⟩, ⟨{ at_ .awaitPresence [] with tmr := 3 }, by decide⟩,
    ⟨{ at_ .awaitPresence [] (move 0b00 true) with tmr := 3 }, by decide⟩⟩

theorem witness_AwaitFrameTestsCountThenDeadline :
    (∃ s : State, s.params.readyThreshold.toNat ≤ s.inputs.rxCount.toNat) ∧
    (∃ s : State, s.inputs.rxCount.toNat < s.params.readyThreshold.toNat ∧ s.params.timeoutTicks.toNat ≤ s.tmr.toNat) ∧
    (∃ s : State, s.inputs.rxCount.toNat < s.params.readyThreshold.toNat ∧ s.tmr.toNat < s.params.timeoutTicks.toNat) :=
  ⟨⟨at_ .awaitFrame (List.replicate 16 0x30), by decide⟩,
    ⟨{ at_ .awaitFrame (List.replicate 15 0x30) with tmr := 4 }, by decide⟩,
    ⟨{ at_ .awaitFrame (List.replicate 15 0x30) with tmr := 3 }, by decide⟩⟩

theorem witness_CaptureSyncHuntsForTheStartMarker :
    (∃ s : State, s.queue = []) ∧ (∃ (s : State) (q : List Byte), s.queue = 0x02 :: q) ∧
    (∃ (s : State) (c : Byte) (q : List Byte), s.queue = c :: q ∧ c ≠ 0x02) :=
  ⟨⟨at_ .captureSync [], by decide⟩, ⟨at_ .captureSync [0x02], [], by decide⟩,
    ⟨at_ .captureSync [0x03], 0x03, [], by decide⟩⟩

theorem witness_CaptureCopyStoresAtLen :
    (∃ s : State, s.queue = []) ∧
    (∃ (s : State) (c : Byte) (q : List Byte), s.queue = c :: q ∧ s.len.toNat < 16 ∧ s.len.toNat = 15) ∧
    (∃ (s : State) (c : Byte) (q : List Byte), s.queue = c :: q ∧ 16 ≤ s.len.toNat ∧ s.len.toNat = 16) ∧
    (∃ (s : State) (c : Byte) (q : List Byte), s.queue = c :: q ∧ 16 ≤ s.len.toNat ∧ s.len.toNat = 31) :=
  ⟨⟨at_ .captureCopy [], by decide⟩, ⟨{ at_ .captureCopy [0x03] with len := 15 }, 0x03, [], by decide⟩,
    ⟨{ at_ .captureCopy [0x03] with len := 16 }, 0x03, [], by decide⟩,
    ⟨{ at_ .captureCopy [0x41] with len := 31 }, 0x41, [], by decide⟩⟩

theorem witness_FlushDiscardsUntilEmpty : (∃ s : State, s.queue = []) ∧ (∃ s : State, s.queue ≠ []) :=
  ⟨⟨at_ .flush [], by decide⟩, ⟨at_ .flush [0x02], by decide⟩⟩

theorem witness_ValidateBranchesOnTheVerdict :
    (∃ s : State, validateFrame s.buf.readByte (s.len.setWidth 8) = .ok) ∧
    (∃ (s : State) (r : ResultCode), validateFrame s.buf.readByte (s.len.setWidth 8) = r ∧ r ≠ .ok) :=
  ⟨⟨{ at_ .validate [] with buf := Memory.ofFrame good, len := 16 }, by decide⟩,
    ⟨{ at_ .validate [] with buf := Memory.ofFrame good, len := 15 }, .tooShort, by decide⟩⟩

theorem witness_ReceivedByteByState :
    (∃ (i : Instr) (c : Byte) (s : State), i.rxByte? = some c ∧ s.st = .captureSync ∧ c = 0x02) ∧
    (∃ (i : Instr) (c : Byte) (s : State), i.rxByte? = some c ∧ s.st = .captureSync ∧ c ≠ 0x02) ∧
    (∃ (i : Instr) (c : Byte) (s : State), i.rxByte? = some c ∧ s.st = .captureCopy ∧ s.len.toNat < 16 ∧ s.len.toNat = 15) ∧
    (∃ (i : Instr) (c : Byte) (s : State), i.rxByte? = some c ∧ s.st = .captureCopy ∧ 16 ≤ s.len.toNat) ∧
    (∃ (i : Instr) (c : Byte) (s : State), i.rxByte? = some c ∧ s.st = .flush) ∧
    (∃ (i : Instr) (c : Byte) (s : State), i.rxByte? = some c ∧ St.pops s.st = false) :=
  ⟨⟨.stx, 0x02, at_ .captureSync [0x02], by decide⟩, ⟨.hexF, 0x46, at_ .captureSync [0x46], by decide⟩,
    ⟨.etx, 0x03, { at_ .captureCopy [0x03] with len := 15 }, by decide⟩,
    ⟨.lf, 0x0A, { at_ .captureCopy [0x0A] with len := 16 }, by decide⟩,
    ⟨.other 0x00, 0x00, at_ .flush [0x00], by decide⟩, ⟨.cr, 0x0D, at_ .idle [0x0D], by decide⟩⟩

theorem witness_SentinelsInPlaceLeaveLengthAndChecksum :
    (∃ (f : Frame) (s : State), (Instr.frameOk f).wellFormed = true ∧ s.st = .validate ∧ s.len.toNat ≠ 16) ∧
    (∃ (f : Frame) (s : State), (Instr.frameOk f).wellFormed = true ∧ s.st = .validate ∧ s.len.toNat = 16 ∧
      checksum (frameByte f) ≠ bcdByte (frameByte f 11) (frameByte f 12)) ∧
    (∃ (f : Frame) (s : State), (Instr.frameOk f).wellFormed = true ∧ s.st = .validate ∧ s.len.toNat = 16 ∧
      checksum (frameByte f) = bcdByte (frameByte f 11) (frameByte f 12)) ∧
    (∃ (f : Frame) (s : State), (Instr.frameOk f).wellFormed = true ∧ s.st ≠ .validate) :=
  ⟨⟨good, { at_ .validate [] with len := 15 }, by decide⟩,
    ⟨0x030A0D36303938373635343332313002, { at_ .validate [] with len := 16 }, by decide⟩,
    ⟨good, { at_ .validate [] with len := 16 }, by decide⟩, ⟨good, at_ .extract [], by decide⟩⟩

theorem witness_HardwareResetOverridesEveryRule : ∃ s : State, s.inputs.hwReset = true :=
  ⟨at_ .flush [0x30] { move 0b00 false with hwReset := true }, by decide⟩

theorem witness_PinIsTheIdleLevelUnlessTriggered : (∃ s : State, s.inited = false) ∧ (∃ s : State, s.inited = true) :=
  ⟨⟨State.reset, rfl⟩, ⟨at_ .armed [], by decide⟩⟩

theorem witness_TransportInputsShowTheQueue : ∃ (s : State) (c : Byte) (q : List Byte), s.queue = c :: q :=
  ⟨at_ .flush [0x41, 0x42], 0x41, [0x42], by decide⟩

/-- A popping step, a step of INIT and a step with hardware reset: for the statements about every step. -/
theorem witness_QueueMovesByTheOutputs :
    (∃ s t : State, step s = .next t ∧ s.outputs.rxPop = true) ∧ (∃ s t : State, step s = .next t ∧ s.outputs.uartBegin = true) ∧
    (∃ s t : State, step s = .next t ∧ s.inputs.hwReset = true) :=
  ⟨⟨at_ .flush [0x30], (next_of_completes _ (by decide)).choose, (next_of_completes _ (by decide)).choose_spec, by decide⟩,
    ⟨at_ .idle [] (move 0b01 false), (next_of_completes _ (by decide)).choose, (next_of_completes _ (by decide)).choose_spec, by decide⟩,
    ⟨at_ .flush [] { move 0b00 false with hwReset := true }, (next_of_completes _ (by decide)).choose,
      (next_of_completes _ (by decide)).choose_spec, by decide⟩⟩

theorem witness_InstantiationRefusesOutOfBounds :
    Params.instantiate (2 ^ 32 - 1) 0 1 1 = some ⟨0xFFFFFFFF, 0, 1, true⟩ ∧
    Params.instantiate 0 (2 ^ 32 - 1) 255 0 = some ⟨0, 0xFFFFFFFF, 255, false⟩ := by decide

theorem witness_NothingWritesTheParameters :
    (∃ (i : Instr) (s t : State), exec i s = .next t) ∧ (∃ s t : State, step s = .next t) :=
  ⟨⟨.init, at_ .idle [], next_of_completes _ (by decide)⟩, ⟨at_ .armed [], next_of_completes _ (by decide)⟩⟩

theorem witness_StepsFollowTheTransitionTable :
    (∃ s t : State, step s = .next t ∧ s.inputs.hwReset = false) ∧ (∃ s t : State, step s = .next t ∧ s.inputs.hwReset = true) :=
  ⟨⟨at_ .flush [0x30], (next_of_completes _ (by decide)).choose, (next_of_completes _ (by decide)).choose_spec, by decide⟩,
    ⟨at_ .flush [] { move 0b00 false with hwReset := true }, (next_of_completes _ (by decide)).choose,
      (next_of_completes _ (by decide)).choose_spec, by decide⟩⟩

/-- Each premise of the seven clauses is met by a step. -/
theorem witness_EachResultAndModeRegisterHasItsOneWriter :
    field State.rstTrig (step (at_ .armed [])) = some true ∧ (at_ .armed []).rstTrig = false ∧
    field (fun s => (s.done, s.status)) (step { at_ .restoreIdle [] with res := .timeout }) = some (true, .timeout) ∧
    field State.tag (step { at_ .extract [] with buf := [(1, 0x41)] }) = some #v[0x41, 0, 0, 0, 0, 0, 0, 0, 0, 0] ∧
    field State.buf (step (at_ .captureSync [0x02])) = some [(0, 0x02)] ∧
    field State.inited (step { at_ .idle [] (move 0b01 false) with inited := false }) = some true ∧
    field State.inited (step (at_ .flush [] { move 0b00 false with hwReset := true })) = some false := by decide

/-- A state in the middle of a copy: the start marker and one digit are stored. -/
def midCopy : State := { quiet .captureCopy [0x31, 0x03] 4 0 with buf := [(0, 0x02), (1, 0x30)], len := 2, rstTrig := true }

theorem midCopy_readByte (a : Nat) : midCopy.buf.readByte a = if 0 = a then 0x02 else if 1 = a then 0x30 else 0x00 := rfl

theorem midCopy_captureInv : CaptureInv midCopy := by
  refine ⟨by decide, by decide, ?_, fun h => (by cases h), fun _ => (by decide), fun _ => rfl, ?_, ?_⟩
  · intro a (ha : 2 ≤ a)
    rw [midCopy_readByte, if_neg (by omega), if_neg (by omega)]
  · intro a h1 (h2 : a + 1 < 2)
    omega
  · intro _ a h1 (h2 : a < 2)
    obtain rfl : a = 1 := by omega
    decide

theorem witness_StepKeepsSequencerInvariants : ∃ s t : State, SeqInv s ∧ step s = .next t := by
  obtain ⟨t, ht⟩ := next_of_completes (step midCopy) (by decide)
  exact ⟨midCopy, t, ⟨by decide, by decide, by decide, by decide, by decide, by decide, by decide, by decide, by decide⟩, ht⟩

theorem witness_StepKeepsCaptureInvariants : ∃ s t : State, CaptureInv s ∧ step s = .next t := by
  obtain ⟨t, ht⟩ := next_of_completes (step midCopy) (by decide)
  exact ⟨midCopy, t, midCopy_captureInv, ht⟩

/-- A state in EXTRACT with the frame GOOD captured. -/
def extracting : State := { quiet .extract [] 4 0 with buf := Memory.ofFrame good, len := 16, rstTrig := true }

theorem witness_StepKeepsDeliveredTagsValid : ∃ s t : State, ResultInv s ∧ step s = .next t := by
  obtain ⟨t, ht⟩ := next_of_completes (step extracting) (by decide)
  refine ⟨extracting, t, ⟨fun _ => ?_, fun h => (by cases h), fun h => (by cases h)⟩, ht⟩
  show validateFrame _ _ = _
  decide

theorem witness_EveryOperationKeepsTheBufferCanonical :
    ∃ (i : Instr) (s t : State), s.buf.wf = true ∧ exec i s = .next t := by
  obtain ⟨t, ht⟩ := next_of_completes (exec .hex1 midCopy) (by decide)
  exact ⟨.hex1, midCopy, t, by decide, ht⟩

/-- Two states that differ in what the registers and the ports do not show: the queue behind its head, and the cycle counter. -/
theorem witness_NextRegistersDependOnRegistersAndPorts :
    ∃ s u s' : State, s.registers = u.registers ∧ s.params = u.params ∧ s.inputs.hwReset = u.inputs.hwReset ∧
      s.inputs.cmd = u.inputs.cmd ∧ s.inputs.tir = u.inputs.tir ∧ s.inputs.rxCount = u.inputs.rxCount ∧
      (s.inputs.rxCount ≠ 0 → s.inputs.rxData = u.inputs.rxData) ∧ step s = .next s' ∧ s ≠ u := by
  obtain ⟨t, ht⟩ := next_of_completes (step midCopy) (by decide)
  exact ⟨midCopy, { midCopy with queue := [0x31, 0x44], cycle := 9 }, t, by decide, by decide, by decide, by decide, by decide,
    by decide, by decide, ht, by decide⟩

theorem witness_SettleDelayCountsUpToSettleTicks :
    ∃ (k : Nat) (s : State), s.st = .awaitPresence ∧ s.tmr.toNat + k ≤ s.params.settleTicks.toNat ∧
      (∀ j : Nat, j < k → (s.moveAt j).hwReset = false) ∧ k = 3 :=
  ⟨3, quiet .awaitPresence [] 4 0, by decide⟩

theorem witness_FlushEndsOnAQuietTransport :
    ∃ (k : Nat) (s : State), s.st = .flush ∧ s.queue.length = k ∧ (∀ j : Nat, j ≤ k → isQuiet (s.moveAt j) = true) ∧ k = 2 :=
  ⟨2, quiet .flush [0x0D, 0x0A] 4 0, by decide⟩

theorem witness_CleanFrameIsCapturedInSixteenSteps :
    ∃ (s : State) (frame rest : List Byte), s.st = .captureSync ∧ s.queue = frame ++ rest ∧ frame.length = 16 ∧
      frame[0]? = some 0x02 ∧ frame[15]? = some 0x03 ∧ (∀ i : Nat, 1 ≤ i → i ≤ 14 → frame[i]? ≠ some 0x03) ∧
      (∀ j : Nat, j < 16 → isQuiet (s.moveAt j) = true) := by
  refine ⟨quiet .captureSync (goodBytes ++ [0x0D, 0x0A]) 16 0, goodBytes, [0x0D, 0x0A], by decide, by decide, by decide, by decide,
    by decide, ?_, by decide⟩
  have h : ∀ i < 15, 1 ≤ i → goodBytes[i]? ≠ some 0x03 := by decide
  exact fun i h1 h2 => h i (by omega) h1

/-- V7: NoTag with `S = 3`; the tag appears one cycle after the sample. -/
theorem witness_NoTagIsReportedSettleTicksPlusFourStepsAfterRead :
    ∃ s : State, s.st = .idle ∧ s.inited = true ∧ (s.moveAt 0).cmd = 0b10 ∧
      (∀ j : Nat, j < s.params.settleTicks.toNat + 4 → (s.moveAt j).hwReset = false) ∧
      (s.moveAt (s.params.settleTicks.toNat + 2)).tir = false :=
  ⟨{ at_ .idle [] with script := move 0b10 false :: (List.range 8).map fun j => move 0b00 (j == 5) }, by decide⟩

/-- V7: Timeout with `S = 3`, `T = 4`, fifteen bytes queued. -/
theorem witness_TimeoutIsReportedAfterTheLastPoll :
    ∃ s : State, s.st = .idle ∧ s.inited = true ∧ (s.moveAt 0).cmd = 0b10 ∧
      (∀ j : Nat, j < s.params.settleTicks.toNat + s.params.timeoutTicks.toNat + 5 → isQuiet (s.moveAt j) = true) ∧
      (s.moveAt (s.params.settleTicks.toNat + 2)).tir = true ∧ s.queue.length < s.params.readyThreshold.toNat :=
  ⟨{ at_ .idle (List.replicate 15 0x30) with script := move 0b10 false :: (List.range 12).map fun j => move 0b00 (j == 4) },
    by decide⟩

end Sys2Proof.Tests
end

namespace Sys2Proof.Machine

/-! ### The scope of the block: parameters, the edge, totality, and what the next registers depend on (00_scope.md) -/

/-! #### The parameters -/

/-- The numbers R7 admits, in the order `Params.instantiate` takes them. -/
def Params.InBounds (settle timeout ready level : Nat) : Prop :=
  settle < 2 ^ 32 ∧ timeout < 2 ^ 32 ∧ 1 ≤ ready ∧ ready < 2 ^ 8 ∧ level < 2

theorem Params.instantiate_isSome_iff (settle timeout ready level : Nat) :
    (Params.instantiate settle timeout ready level).isSome = true ↔ Params.InBounds settle timeout ready level := by
  unfold Params.instantiate Params.InBounds
  split
  · next hb => exact iff_of_true rfl hb
  · next hb => exact iff_of_false Bool.false_ne_true hb

/-- What is instantiated was within the bounds, and is the four numbers at the widths of the parameters. -/
theorem Params.of_instantiate_eq_some {settle timeout ready level : Nat} {p : Params}
    (h : Params.instantiate settle timeout ready level = some p) :
    Params.InBounds settle timeout ready level ∧
      p = ⟨BitVec.ofNat 32 settle, BitVec.ofNat 32 timeout, BitVec.ofNat 8 ready, level == 1⟩ := by
  unfold Params.instantiate at h
  split at h
  · next hb => exact ⟨hb, (Option.some.inj h).symm⟩
  · cases h

/-- A level below 2 is read back from the flag that holds it. -/
theorem toNat_beq_one_of_lt_two {n : Nat} (h : n < 2) : (n == 1).toNat = n := by
  obtain rfl | rfl : n = 0 ∨ n = 1 := by omega
  · rfl
  · rfl

/-- Settles O45: within the bounds of R7 each number fits the width of its parameter unchanged. -/
theorem instantiationRefusesOutOfBounds : Obligations.InstantiationRefusesOutOfBounds := by
  intro settle timeout ready level
  refine ⟨Params.instantiate_isSome_iff settle timeout ready level, fun p hp => ?_⟩
  obtain ⟨⟨hsettle, htimeout, hready, hready', hlevel⟩, rfl⟩ := Params.of_instantiate_eq_some hp
  have hreadyFits : (BitVec.ofNat 8 ready).toNat = ready := by rw [BitVec.toNat_ofNat, Nat.mod_eq_of_lt hready']
  exact ⟨hready.trans_eq hreadyFits.symm, by rw [BitVec.toNat_ofNat, Nat.mod_eq_of_lt hsettle],
    by rw [BitVec.toNat_ofNat, Nat.mod_eq_of_lt htimeout], hreadyFits, toNat_beq_one_of_lt_two hlevel⟩

/-! #### The edge and the fetch -/

@[simp] theorem State.clock_registers (pop uartBegin : Bool) (s : State) :
    (State.clock pop uartBegin s).registers = s.registers := rfl

/-- Settles O18, from the laws of `State.clock`. -/
theorem clockIsOneEdgeOfTheEnvironment : Obligations.ClockIsOneEdgeOfTheEnvironment := fun s pop uartBegin =>
  ⟨State.clock_registers pop uartBegin s, State.clock_params pop uartBegin s, State.clock_codec pop uartBegin s,
    State.clock_script pop uartBegin s, State.clock_cycle pop uartBegin s, State.clock_queue pop uartBegin s⟩

/-- Settles O7: by `decode_fetchWord` the operation is the one of the state `st`. -/
theorem stepRunsTheOperationAtTheProgramCounter : Obligations.StepRunsTheOperationAtTheProgramCounter := by
  intro s i hreset hdecode _
  obtain rfl : s.st.instr = i := Except.ok.inj ((decode_fetchWord s).symm.trans hdecode)
  calc
    step s = stateCycle s.inputs.cmd s.rxHead s.buf.readByte s := by simp [step_eq, hreset]
    _ = exec s.st.instr s := (exec_state_eq_stateCycle s).symm

/-! #### Totality: every clock cycle has a successor (R11) -/

/-- A branch between answers that are next states is a next state. -/
theorem exists_next_ite {p : Prop} [Decidable p] {a b : Answer} (ha : ∃ t : State, a = .next t)
    (hb : ∃ t : State, b = .next t) : ∃ t : State, (if p then a else b) = .next t := by
  split
  · exact ha
  · exact hb

theorem idleCycle_total (c : BitVec 2) (s : State) : ∃ t : State, idleCycle c s = .next t := by
  unfold idleCycle
  split
  · exact ⟨_, rfl⟩
  · exact exists_next_ite ⟨_, rfl⟩ ⟨_, rfl⟩
  · exact ⟨_, rfl⟩

theorem awaitPresenceCycle_total (tir : Bool) (s : State) : ∃ t : State, awaitPresenceCycle tir s = .next t :=
  exists_next_ite ⟨_, rfl⟩ (exists_next_ite ⟨_, rfl⟩ ⟨_, rfl⟩)

theorem awaitFrameCycle_total (rxCount : BitVec 8) (s : State) : ∃ t : State, awaitFrameCycle rxCount s = .next t :=
  exists_next_ite ⟨_, rfl⟩ (exists_next_ite ⟨_, rfl⟩ ⟨_, rfl⟩)

theorem captureSyncCycle_total (popped : Option Byte) (s : State) : ∃ t : State, captureSyncCycle popped s = .next t := by
  cases popped with
  | none => exact ⟨_, rfl⟩
  | some c => exact exists_next_ite ⟨_, rfl⟩ ⟨_, rfl⟩

/-- At `len` = 16 and above too: the store at an offset that does not exist is no fault (R10, R133). -/
theorem captureCopyCycle_total (popped : Option Byte) (s : State) : ∃ t : State, captureCopyCycle popped s = .next t := by
  cases popped with
  | none => exact ⟨_, rfl⟩
  | some c => exact ⟨_, rfl⟩

theorem flushCycle_total (popped : Option Byte) (s : State) : ∃ t : State, flushCycle popped s = .next t := by
  cases popped with
  | none => exact ⟨_, rfl⟩
  | some c => exact ⟨_, rfl⟩

theorem validateCycle_total (b : Nat → Byte) (s : State) : ∃ t : State, validateCycle b s = .next t := by
  unfold validateCycle
  split
  · exact ⟨_, rfl⟩
  · exact ⟨_, rfl⟩

theorem stateCycle_total (c : BitVec 2) (popped : Option Byte) (b : Nat → Byte) (s : State) :
    ∃ t : State, stateCycle c popped b s = .next t := by
  unfold stateCycle
  cases s.st with
  | idle => exact idleCycle_total c s
  | awaitPresence => exact awaitPresenceCycle_total _ s
  | awaitFrame => exact awaitFrameCycle_total _ s
  | captureSync => exact captureSyncCycle_total popped s
  | captureCopy => exact captureCopyCycle_total popped s
  | flush => exact flushCycle_total popped s
  | validate => exact validateCycle_total b s
  | armed | extract | restoreIdle => exact ⟨_, rfl⟩

theorem step_total (s : State) : ∃ t : State, step s = .next t := by
  rw [step_eq]
  exact exists_next_ite ⟨_, rfl⟩ (stateCycle_total _ _ _ s)

/-- By format: a command, a received byte and a frame are a clock cycle of the state, a row of STATE is its own cycle, an outcome an exit,
and a codec function writes its result line. -/
theorem exec_total (i : Instr) (s : State) : ∃ t : State, exec i s = .next t := by
  cases hb : i.rxByte? with
  | some c => rw [exec_of_rxByte i c s hb]; exact stateCycle_total _ _ _ s
  | none =>
    cases i with
    | nop | init | read | cmdRsvd | frameOk => exact stateCycle_total _ _ _ s
    | sIdle => exact idleCycle_total _ s
    | sAwaitPresence => exact awaitPresenceCycle_total _ s
    | sAwaitFrame => exact awaitFrameCycle_total _ s
    | sCaptureSync => exact captureSyncCycle_total _ s
    | sCaptureCopy => exact captureCopyCycle_total _ s
    | sFlush => exact flushCycle_total _ s
    | sValidate => exact validateCycle_total _ s
    | sArmed | sExtract | sRestoreIdle => exact ⟨_, rfl⟩
    | ok | noTag | timeout | tooShort | badFraming | badChecksum => exact ⟨_, rfl⟩
    | hexval | bcdbyte | checksum | validateFrame => exact ⟨_, rfl⟩
    | _ => cases hb

/-- Settles O53. -/
theorem everyStateAndEveryOperationHasASuccessor : Obligations.EveryStateAndEveryOperationHasASuccessor :=
  ⟨step_total, exec_total⟩

/-! #### The next registers depend on the registers, the parameters and the ports only (R11, R58, R60)

A state with the registers and parameters of `s` is `s` in another environment. Each clock cycle, given the words on its ports, answers
the same registers in every environment. -/

/-- The state with the registers and parameters of `s`, and with everything else of `u`. -/
def State.inEnvironmentOf (s u : State) : State :=
  { s with queue := u.queue, script := u.script, cycle := u.cycle, codec := u.codec }

theorem State.eq_inEnvironmentOf {s u : State} (hregs : s.registers = u.registers) (hparams : s.params = u.params) :
    u = s.inEnvironmentOf u := by
  cases s
  cases u
  cases hregs
  cases hparams
  rfl

/-- What `Pop()` would yield is read off the ports: `rx_data`, where `rx_count > 0` (R10, R57, R58). -/
theorem State.rxHead_eq_of_inputs (s : State) :
    s.rxHead = if s.inputs.rxCount = 0 then none else some s.inputs.rxData := by
  cases hq : s.queue with
  | nil => simp only [State.rxHead_nil s hq, State.inputs, hq, (rxCountOf_eq_zero []).mpr rfl, if_true]
  | cons c q =>
    have hne : rxCountOf (c :: q) ≠ 0 := mt (rxCountOf_eq_zero (c :: q)).mp (List.cons_ne_nil c q)
    simp only [State.rxHead_cons s c q hq, State.inputs, hq, hne, if_false, List.head?_cons, Option.getD_some]

theorem State.rxHead_congr {s u : State} (hcount : s.inputs.rxCount = u.inputs.rxCount)
    (hdata : s.inputs.rxCount ≠ 0 → s.inputs.rxData = u.inputs.rxData) : s.rxHead = u.rxHead := by
  rw [State.rxHead_eq_of_inputs s, State.rxHead_eq_of_inputs u, ← hcount]
  split
  · rfl
  · next hne => rw [hdata hne]

/-- The registers an answer leaves, where it is a next state. -/
def registersAfter : Answer → Option Registers
  | .next t => some t.registers
  | .fault _ | .refused _ => none

theorem registersAfter_eq_some_iff (a : Answer) (r : Registers) :
    registersAfter a = some r ↔ ∃ t : State, a = .next t ∧ t.registers = r := by
  cases a with
  | next t => simp [registersAfter]
  | fault e | refused e => simp [registersAfter]

theorem idleCycle_inEnvironmentOf (c : BitVec 2) (s u : State) :
    registersAfter (idleCycle c (s.inEnvironmentOf u)) = registersAfter (idleCycle c s) := by
  unfold idleCycle
  split
  · rfl
  · rw [apply_ite registersAfter, apply_ite registersAfter]; rfl
  · rfl

theorem awaitPresenceCycle_inEnvironmentOf (tir : Bool) (s u : State) :
    registersAfter (awaitPresenceCycle tir (s.inEnvironmentOf u)) = registersAfter (awaitPresenceCycle tir s) := by
  simp only [awaitPresenceCycle, apply_ite registersAfter]
  rfl

theorem awaitFrameCycle_inEnvironmentOf (rxCount : BitVec 8) (s u : State) :
    registersAfter (awaitFrameCycle rxCount (s.inEnvironmentOf u)) = registersAfter (awaitFrameCycle rxCount s) := by
  simp only [awaitFrameCycle, apply_ite registersAfter]
  rfl

theorem captureSyncCycle_inEnvironmentOf (popped : Option Byte) (s u : State) :
    registersAfter (captureSyncCycle popped (s.inEnvironmentOf u)) = registersAfter (captureSyncCycle popped s) := by
  cases popped with
  | none => rfl
  | some c =>
    simp only [captureSyncCycle, apply_ite registersAfter]
    rfl

theorem captureCopyCycle_inEnvironmentOf (popped : Option Byte) (s u : State) :
    registersAfter (captureCopyCycle popped (s.inEnvironmentOf u)) = registersAfter (captureCopyCycle popped s) := by
  cases popped with
  | none => rfl
  | some c => rfl

theorem flushCycle_inEnvironmentOf (popped : Option Byte) (s u : State) :
    registersAfter (flushCycle popped (s.inEnvironmentOf u)) = registersAfter (flushCycle popped s) := by
  cases popped with
  | none => rfl
  | some c => rfl

/-- The verdict is on the frame given and the register `len`. -/
theorem validateCycle_inEnvironmentOf (b : Nat → Byte) (s u : State) :
    registersAfter (validateCycle b (s.inEnvironmentOf u)) = registersAfter (validateCycle b s) := by
  have hlen : (s.inEnvironmentOf u).len = s.len := rfl
  simp only [validateCycle, hlen]
  split
  · rfl
  · rfl

/-- The two cycles that read a port themselves are given the same port values. -/
theorem stateCycle_inEnvironmentOf (c : BitVec 2) (popped : Option Byte) (b : Nat → Byte) (s u : State)
    (htir : (s.inEnvironmentOf u).inputs.tir = s.inputs.tir)
    (hcount : (s.inEnvironmentOf u).inputs.rxCount = s.inputs.rxCount) :
    registersAfter (stateCycle c popped b (s.inEnvironmentOf u)) = registersAfter (stateCycle c popped b s) := by
  have hst : (s.inEnvironmentOf u).st = s.st := rfl
  simp only [stateCycle, hst, htir, hcount]
  cases s.st with
  | idle => exact idleCycle_inEnvironmentOf c s u
  | awaitPresence => exact awaitPresenceCycle_inEnvironmentOf _ s u
  | awaitFrame => exact awaitFrameCycle_inEnvironmentOf _ s u
  | captureSync => exact captureSyncCycle_inEnvironmentOf popped s u
  | captureCopy => exact captureCopyCycle_inEnvironmentOf popped s u
  | flush => exact flushCycle_inEnvironmentOf popped s u
  | validate => exact validateCycle_inEnvironmentOf b s u
  | armed | extract | restoreIdle => rfl

/-- Two states that show the same registers, parameters and ports step to the same registers. -/
theorem registersAfter_step_congr {s u : State} (hregs : s.registers = u.registers) (hparams : s.params = u.params)
    (hreset : s.inputs.hwReset = u.inputs.hwReset) (hcmd : s.inputs.cmd = u.inputs.cmd) (htir : s.inputs.tir = u.inputs.tir)
    (hcount : s.inputs.rxCount = u.inputs.rxCount) (hdata : s.inputs.rxCount ≠ 0 → s.inputs.rxData = u.inputs.rxData) :
    registersAfter (step u) = registersAfter (step s) := by
  have henv : u = s.inEnvironmentOf u := State.eq_inEnvironmentOf hregs hparams
  have hbuf : u.buf = s.buf := congrArg Registers.buf hregs.symm
  rw [step_eq, step_eq, ← hreset, ← hcmd, ← State.rxHead_congr hcount hdata, hbuf]
  split
  · rfl
  · rw [henv] at htir hcount ⊢
    exact stateCycle_inEnvironmentOf _ _ _ s u htir.symm hcount.symm

/-- Settles O55, through `registersAfter`: it is the same for both states, and it is the registers of `s'`. -/
theorem nextRegistersDependOnRegistersAndPorts : Obligations.NextRegistersDependOnRegistersAndPorts := by
  intro s u s' hregs hparams hreset hcmd htir hcount hdata hstep
  apply (registersAfter_eq_some_iff (step u) s'.registers).mp
  calc
    registersAfter (step u) = registersAfter (step s) :=
      registersAfter_step_congr hregs hparams hreset hcmd htir hcount hdata
    _ = some s'.registers := congrArg registersAfter hstep

end Sys2Proof.Machine

namespace Sys2Proof.Machine

/-! ### The state: reset values, accepted commands, ports, and what every step does to the queue and the parameters (10_state.md) -/

/-! #### The output ports (R42, R43, R44) -/

@[simp] theorem State.outputs_idle (s : State) : s.outputs.idle = (s.st == .idle) := rfl
@[simp] theorem State.outputs_inited (s : State) : s.outputs.inited = s.inited := rfl
@[simp] theorem State.outputs_done (s : State) : s.outputs.done = s.done := rfl
@[simp] theorem State.outputs_status (s : State) : s.outputs.status = s.status.code := rfl
@[simp] theorem State.outputs_tag (s : State) : s.outputs.tag = tagPort s.tag := rfl
@[simp] theorem State.outputs_rstPin (s : State) : s.outputs.rstPin = (s.params.rstIdleLevel ^^ s.rstTrig) := rfl
@[simp] theorem State.outputs_rstOe (s : State) : s.outputs.rstOe = s.inited := rfl
@[simp] theorem State.outputs_rxPop (s : State) :
    s.outputs.rxPop = (!s.inputs.hwReset && St.pops s.st && s.inputs.rxCount != 0) := rfl
@[simp] theorem State.outputs_uartBegin (s : State) :
    s.outputs.uartBegin = (!s.inputs.hwReset && s.st == .idle && s.inputs.cmd == 0b01) := rfl
@[simp] theorem State.outputs_uartBaud (s : State) : s.outputs.uartBaud = 9600 := rfl

theorem St.pops_eq_true_iff (st : St) : St.pops st = true ↔ st = .captureSync ∨ st = .captureCopy ∨ st = .flush := by
  cases st <;> simp [St.pops]

theorem State.rxPop_eq_true_iff (s : State) :
    s.outputs.rxPop = true ↔ s.inputs.hwReset = false ∧
      (s.st = .captureSync ∨ s.st = .captureCopy ∨ s.st = .flush) ∧ 0 < s.inputs.rxCount.toNat := by
  have hcount : s.inputs.rxCount ≠ 0 ↔ 0 < s.inputs.rxCount.toNat := by bv_omega
  simp [St.pops_eq_true_iff, ← hcount, and_assoc]

theorem State.uartBegin_eq_true_iff (s : State) :
    s.outputs.uartBegin = true ↔ s.inputs.hwReset = false ∧ s.st = .idle ∧ s.inputs.cmd = 0b01 := by
  simp [and_assoc]

theorem State.pad_of_not_inited {s : State} (h : s.inited = false) : s.pad = none := by
  simp [State.pad, h]

theorem State.pad_of_inited {s : State} (h : s.inited = true) :
    s.pad = some (s.params.rstIdleLevel ^^ s.rstTrig) := by
  simp [State.pad, h]

/-- Byte `i` of the port stands in bits `8*i+7 .. 8*i` (R24): the `i` bytes below it are skipped, and it is the lowest of the rest. -/
theorem tagPort_extractLsb' (t : Vector Byte 10) (i : Fin 10) : (tagPort t).extractLsb' (8 * i.val) 8 = t[i] := by
  unfold tagPort
  fin_cases i
  all_goals simp [extract_append_high, extract_append_low]

/-- Settles O40, from the equations of the ports. -/
theorem hostPortsAreFunctionsOfTheRegisters : Obligations.HostPortsAreFunctionsOfTheRegisters := fun s =>
  ⟨beq_iff_eq, State.outputs_inited s, State.outputs_done s, State.outputs_status s, tagPort_extractLsb' s.tag⟩

/-- Settles O41: the pad by whether an INIT has been accepted. -/
theorem pinIsTheIdleLevelUnlessTriggered : Obligations.PinIsTheIdleLevelUnlessTriggered := fun s =>
  ⟨State.outputs_rstOe s, State.outputs_rstPin s, State.pad_of_not_inited, State.pad_of_inited⟩

/-- Settles O42, from when `rx_pop` and `uart_begin` are 1. -/
theorem transportPortsByStateAndInputs : Obligations.TransportPortsByStateAndInputs := fun s =>
  ⟨State.rxPop_eq_true_iff s, State.uartBegin_eq_true_iff s, State.outputs_uartBaud s⟩

/-! #### The values hardware reset and the accepted commands write (R33, R34, R35) -/

theorem Memory.readByte_nil_eq_zero (a : Nat) : Memory.readByte [] a = 0x00 := Memory.readByte_nil a

theorem State.reset_registers :
    State.reset.registers = ⟨.idle, [], 0, #v[0, 0, 0, 0, 0, 0, 0, 0, 0, 0], 0, .ok, .ok, false, false, false⟩ := rfl

/-- Hardware reset leaves the registers the machine starts with, whatever they held. -/
theorem State.hardReset_registers (s : State) : s.hardReset.registers = State.reset.registers := rfl

theorem step_of_hwReset {s : State} (h : s.inputs.hwReset = true) :
    step s = .next (State.clock false false s.hardReset) := by
  rw [step_eq, if_pos h]

theorem State.rxPop_of_hwReset {s : State} (h : s.inputs.hwReset = true) : s.outputs.rxPop = false := by simp [h]

theorem State.uartBegin_of_hwReset {s : State} (h : s.inputs.hwReset = true) : s.outputs.uartBegin = false := by simp [h]

theorem commandCycle_of_idle {s : State} (c : BitVec 2) (h : s.st = .idle) : commandCycle c s = idleCycle c s := by
  simp only [commandCycle, stateCycle, h]

theorem idleCycle_init (s : State) :
    idleCycle 0b01 s =
      .next (State.clock false true { s.clearResults with inited := true, rstTrig := false, st := .idle }) := rfl

theorem idleCycle_read_of_inited {s : State} (h : s.inited = true) :
    idleCycle 0b10 s = .next (State.clock false false { s.clearResults with st := .armed }) := if_pos h

/-- Settles O39: no INIT has been accepted, so the pad is not driven. -/
theorem resetValuesOfTheTenRegisters : Obligations.ResetValuesOfTheTenRegisters :=
  ⟨State.reset_registers, Memory.readByte_nil_eq_zero, State.pad_of_not_inited rfl⟩

/-- Settles O38: the step is `State.hardReset` under an edge without a pop. -/
theorem hardwareResetOverridesEveryRule : Obligations.HardwareResetOverridesEveryRule := by
  refine ⟨State.reset_registers, fun s hreset =>
    ⟨State.rxPop_of_hwReset hreset, State.uartBegin_of_hwReset hreset, _, step_of_hwReset hreset, ?_,
      Memory.readByte_nil_eq_zero, State.clock_queue false false s.hardReset, State.clock_params false false s.hardReset⟩⟩
  rw [State.clock_registers, State.hardReset_registers, State.reset_registers]

/-- Settles O21: in IDLE the row is `idleCycle`, which accepts the READ. -/
theorem acceptedReadClearsAndArms : Obligations.AcceptedReadClearsAndArms := by
  intro s hidle hinited
  refine ⟨?_, Memory.readByte_nil_eq_zero⟩
  calc
    exec .read s = idleCycle 0b10 s := commandCycle_of_idle 0b10 hidle
    _ = .next (State.clock false false { s.clearResults with st := .armed }) := idleCycle_read_of_inited hinited

/-- Settles O22: the row writes `st` with IDLE, which it is. -/
theorem acceptedInitWritesTheStartingState : Obligations.AcceptedInitWritesTheStartingState := by
  intro s hidle
  refine ⟨?_, Memory.readByte_nil_eq_zero⟩
  calc
    exec .init s = idleCycle 0b01 s := commandCycle_of_idle 0b01 hidle
    _ = .next (State.clock false true { s.clearResults with inited := true, rstTrig := false, st := .idle }) :=
      idleCycle_init s
    _ = .next (State.clock false true { s.clearResults with inited := true, rstTrig := false }) := by
      rw [← hidle]; rfl

/-! #### The state after reset meets the invariants (R33, R131, R171) -/

/-- The threshold is any of 1 to 255 (R6), so the eight bits of the parameter hold it unchanged (R7). -/
theorem Config.params_legal : Config.params.legal := by
  have hslack : Config.readySlack.val < 255 := Config.readySlack.isLt
  have hfits : (BitVec.ofNat 8 (Config.readySlack.val + 1)).toNat = Config.readySlack.val + 1 := by
    rw [BitVec.toNat_ofNat, Nat.mod_eq_of_lt (by omega)]
  exact (Nat.le_add_left 1 _).trans_eq hfits.symm

theorem State.reset_seqInv : SeqInv State.reset where
  legal := Config.params_legal
  line := by decide
  notInited _ := ⟨rfl, rfl, rfl⟩
  doneIdle _ := rfl
  statusDone h := absurd rfl h
  tagDelivered h := absurd rfl h
  undecided _ _ := rfl
  settleBound h := nomatch h
  deadlineBound h := nomatch h

theorem State.reset_captureInv : CaptureInv State.reset where
  canonical := State.reset_buf_wf
  lenBound := by decide
  tailZero a _ := Memory.readByte_nil_eq_zero a
  nothingYet _ := rfl
  copyRange h := nomatch h
  startMarker h := absurd h (by decide)
  endMarkerLast a _ h := absurd h (Nat.not_lt_zero _)
  copyNoEnd h := nomatch h

theorem State.reset_resultInv : ResultInv State.reset where
  extractValid h := nomatch h
  exitValid h := nomatch h
  deliveredValid _ h := nomatch h

/-- Settles O52, one family of invariants at a time. -/
theorem resetMeetsTheInvariants : Obligations.ResetMeetsTheInvariants :=
  ⟨State.reset_seqInv, State.reset_captureInv, State.reset_resultInv⟩

/-! #### Every clock cycle ends with one edge of the environment and writes no parameter (R31, R44, R56) -/

/-- `t` is one edge after `s`: the queue has moved by `pop` and `uartBegin`, and the parameters are those of `s`. -/
structure IsEdgeOf (pop uartBegin : Bool) (s t : State) : Prop where
  queue : t.queue = transportEdge s.move pop uartBegin s.queue
  params : t.params = s.params

theorem idleCycle_isEdgeOf {c : BitVec 2} {s t : State} (h : idleCycle c s = .next t) :
    IsEdgeOf false (c == 0b01) s t := by
  rcases idleCycle_cases _ _ _ h with ⟨rfl, rfl⟩ | ⟨rfl, _, rfl⟩ | ⟨hc, _, rfl⟩
  · exact ⟨rfl, rfl⟩
  · exact ⟨rfl, rfl⟩
  · rw [beq_false_of_ne hc]; exact ⟨rfl, rfl⟩

theorem armedCycle_isEdgeOf {s t : State} (h : armedCycle s = .next t) : IsEdgeOf false false s t := by
  cases h; exact ⟨rfl, rfl⟩

theorem awaitPresenceCycle_isEdgeOf {tir : Bool} {s t : State} (h : awaitPresenceCycle tir s = .next t) :
    IsEdgeOf false false s t := by
  rcases awaitPresenceCycle_cases _ _ _ h with ⟨_, rfl⟩ | ⟨_, _, rfl⟩ | ⟨_, _, rfl⟩ <;> exact ⟨rfl, rfl⟩

theorem awaitFrameCycle_isEdgeOf {rxCount : BitVec 8} {s t : State} (h : awaitFrameCycle rxCount s = .next t) :
    IsEdgeOf false false s t := by
  rcases awaitFrameCycle_cases _ _ _ h with ⟨_, rfl⟩ | ⟨_, _, rfl⟩ | ⟨_, _, rfl⟩ <;> exact ⟨rfl, rfl⟩

theorem captureSyncCycle_isEdgeOf {popped : Option Byte} {s t : State} (h : captureSyncCycle popped s = .next t) :
    IsEdgeOf popped.isSome false s t := by
  rcases captureSyncCycle_cases _ _ _ h with ⟨rfl, rfl⟩ | ⟨rfl, rfl⟩ | ⟨_, rfl, _, rfl⟩ <;> exact ⟨rfl, rfl⟩

theorem captureCopyCycle_isEdgeOf {popped : Option Byte} {s t : State} (h : captureCopyCycle popped s = .next t) :
    IsEdgeOf popped.isSome false s t := by
  rcases captureCopyCycle_cases _ _ _ h with ⟨rfl, rfl⟩ | ⟨_, rfl, rfl⟩ <;> exact ⟨rfl, rfl⟩

theorem flushCycle_isEdgeOf {popped : Option Byte} {s t : State} (h : flushCycle popped s = .next t) :
    IsEdgeOf popped.isSome false s t := by
  rcases flushCycle_cases _ _ _ h with ⟨rfl, rfl⟩ | ⟨_, rfl, rfl⟩ <;> exact ⟨rfl, rfl⟩

theorem validateCycle_isEdgeOf {b : Nat → Byte} {s t : State} (h : validateCycle b s = .next t) :
    IsEdgeOf false false s t := by
  rcases validateCycle_cases _ _ _ h with ⟨_, rfl⟩ | ⟨_, _, _, rfl⟩ <;> exact ⟨rfl, rfl⟩

theorem extractCycle_isEdgeOf {s t : State} (h : extractCycle s = .next t) : IsEdgeOf false false s t := by
  cases h; exact ⟨rfl, rfl⟩

theorem restoreIdleCycle_isEdgeOf {s t : State} (h : restoreIdleCycle s = .next t) : IsEdgeOf false false s t := by
  cases h; exact ⟨rfl, rfl⟩

/-- The cycle pops in the three popping states where there is a byte, and begins the transport in IDLE on INIT. -/
theorem stateCycle_isEdgeOf {c : BitVec 2} {popped : Option Byte} {b : Nat → Byte} {s t : State}
    (h : stateCycle c popped b s = .next t) :
    IsEdgeOf (St.pops s.st && popped.isSome) (s.st == .idle && c == 0b01) s t := by
  unfold stateCycle at h
  cases hst : s.st <;> rw [hst] at h
  case idle => exact idleCycle_isEdgeOf h
  case armed => exact armedCycle_isEdgeOf h
  case awaitPresence => exact awaitPresenceCycle_isEdgeOf h
  case awaitFrame => exact awaitFrameCycle_isEdgeOf h
  case captureSync => exact captureSyncCycle_isEdgeOf h
  case captureCopy => exact captureCopyCycle_isEdgeOf h
  case flush => exact flushCycle_isEdgeOf h
  case validate => exact validateCycle_isEdgeOf h
  case extract => exact extractCycle_isEdgeOf h
  case restoreIdle => exact restoreIdleCycle_isEdgeOf h

/-- `Pop()` yields a byte exactly where `rx_count > 0` (R10, R57). -/
theorem State.isSome_rxHead (s : State) : s.rxHead.isSome = (s.inputs.rxCount != 0) := by
  rw [State.rxHead_eq_of_inputs]
  split
  · next hzero => simp [hzero]
  · next hne => simpa using hne

theorem step_isEdgeOf {s t : State} (h : step s = .next t) : IsEdgeOf s.outputs.rxPop s.outputs.uartBegin s t := by
  rcases step_cases s t h with ⟨hreset, rfl⟩ | ⟨hreset, hcycle⟩
  · rw [State.rxPop_of_hwReset hreset, State.uartBegin_of_hwReset hreset]
    exact ⟨rfl, rfl⟩
  · have hedge := stateCycle_isEdgeOf hcycle
    rw [State.isSome_rxHead] at hedge
    simpa [hreset] using hedge

/-- Every row is a clock cycle, the edge of an exit, or a codec call, and none of the three writes the parameters (R31 (b)). -/
theorem exec_params {i : Instr} {s t : State} (h : exec i s = .next t) : t.params = s.params := by
  cases hb : i.rxByte? with
  | some c => rw [exec_of_rxByte i c s hb] at h; exact (stateCycle_isEdgeOf h).params
  | none =>
    cases i with
    | nop | init | read | cmdRsvd | frameOk => exact (stateCycle_isEdgeOf h).params
    | sIdle => exact (idleCycle_isEdgeOf h).params
    | sArmed => exact (armedCycle_isEdgeOf h).params
    | sAwaitPresence => exact (awaitPresenceCycle_isEdgeOf h).params
    | sAwaitFrame => exact (awaitFrameCycle_isEdgeOf h).params
    | sCaptureSync => exact (captureSyncCycle_isEdgeOf h).params
    | sCaptureCopy => exact (captureCopyCycle_isEdgeOf h).params
    | sFlush => exact (flushCycle_isEdgeOf h).params
    | sValidate => exact (validateCycle_isEdgeOf h).params
    | sExtract | ok => exact (extractCycle_isEdgeOf h).params
    | sRestoreIdle => exact (restoreIdleCycle_isEdgeOf h).params
    | noTag | timeout | tooShort | badFraming | badChecksum => cases h; rfl
    | hexval | bcdbyte | checksum | validateFrame => cases h; rfl
    | _ => cases hb

/-- Settles O44, from `step_isEdgeOf`. -/
theorem queueMovesByTheOutputs : Obligations.QueueMovesByTheOutputs := fun _ _ h => (step_isEdgeOf h).queue

/-- Settles O46. -/
theorem nothingWritesTheParameters : Obligations.NothingWritesTheParameters :=
  ⟨fun _ _ _ h => exec_params h, fun _ _ h => (step_isEdgeOf h).params⟩

end Sys2Proof.Machine

namespace Sys2Proof.Machine

/-! ### The memory: the transport's queue and the frame buffer (20_memory.md) -/

/-! #### The edge that ends a cycle, and the input ports of the transport (R55, R56, R59, R241) -/

/-- An overflow overrides the pop, the restart and the arrivals (R241). -/
theorem transportEdge_of_overflow {m : EnvMove} {q' : List Byte} (h : m.overflow = some q') (pop uartBegin : Bool)
    (q : List Byte) : transportEdge m pop uartBegin q = q' := by
  simp only [transportEdge, h, Option.getD_some]

/-- An ordinary cycle: the pop, then the arrivals (R56). -/
theorem transportEdge_of_not_begin {m : EnvMove} (h : m.overflow = none) (pop : Bool) (q : List Byte) :
    transportEdge m pop false q = (if pop then q.tail else q) ++ m.arrivals := by
  simp only [transportEdge, h, Option.getD_none, Bool.false_eq_true, if_false]

/-- A cycle that begins the transport: what the restart leaves, then the arrivals (R59). -/
theorem transportEdge_of_begin {m : EnvMove} (h : m.overflow = none) (q : List Byte) :
    transportEdge m false true q = m.restart.getD q ++ m.arrivals := by
  simp only [transportEdge, h, Option.getD_none, Bool.false_eq_true, if_false, if_true]

/-- Settles O19: without an overflow by whether the cycle begins the transport. -/
theorem edgePopsThenAppends : Obligations.EdgePopsThenAppends := by
  intro m c q
  refine ⟨fun hno => ⟨transportEdge_of_not_begin hno true (c :: q), transportEdge_of_not_begin hno false (c :: q),
    transportEdge_of_not_begin hno false [], fun hkeep => ?_, fun q' hrestart => ?_⟩,
    fun q' pop uartBegin hover => transportEdge_of_overflow hover pop uartBegin q⟩
  · rw [transportEdge_of_begin hno, hkeep, Option.getD_none]
  · rw [transportEdge_of_begin hno, hrestart, Option.getD_some]

theorem State.inputs_rxCount (s : State) : s.inputs.rxCount = rxCountOf s.queue := rfl

theorem State.inputs_rxData_of_cons {s : State} {c : Byte} {q : List Byte} (h : s.queue = c :: q) :
    s.inputs.rxData = c := by
  simp only [State.inputs, h, List.head?_cons, Option.getD_some]

/-- Settles O43: saturation at 255 is `rxCountOf_toNat`. -/
theorem transportInputsShowTheQueue : Obligations.TransportInputsShowTheQueue := fun s =>
  ⟨by rw [State.inputs_rxCount, rxCountOf_toNat], fun _ _ hq => State.inputs_rxData_of_cons hq⟩

/-! #### Every operation keeps the canonical form of the buffer (R50, R54)

A row of STATE runs the rule of its state wherever the sequencer is. Outside IDLE that is the clock cycle of the sequencer placed in the
state, because the rule writes `st`; the rule of IDLE may leave `st` as it is. -/

/-- A row of STATE other than S_IDLE does not look at where the sequencer is. -/
theorem exec_instr_eq_stateCycle_placed {x : St} (hx : x ≠ .idle) (s : State) :
    exec x.instr s = stateCycle s.inputs.cmd s.rxHead s.buf.readByte { s with st := x } := by
  cases x with
  | idle => exact absurd rfl hx
  | armed | awaitPresence | awaitFrame | captureSync | captureCopy | flush | validate | extract | restoreIdle => rfl

theorem idleCycle_wf {c : BitVec 2} {s t : State} (hw : s.buf.wf = true) (h : idleCycle c s = .next t) : t.buf.wf = true := by
  rcases idleCycle_cases c s t h with ⟨_, rfl⟩ | ⟨_, _, rfl⟩ | ⟨_, _, rfl⟩
  · exact Memory.wf_nil
  · exact Memory.wf_nil
  · exact hw

/-- A row of STATE keeps the canonical form, wherever the sequencer is. -/
theorem exec_instr_wf (x : St) {s t : State} (hw : s.buf.wf = true) (h : exec x.instr s = .next t) : t.buf.wf = true := by
  by_cases hx : x = .idle
  · subst hx
    exact idleCycle_wf hw h
  · rw [exec_instr_eq_stateCycle_placed hx] at h
    exact stateCycle_wf _ _ _ _ t h hw

/-- By format: a clock cycle of the state, the rule of a row of STATE, an exit, or a codec call; the last two write no byte. -/
theorem exec_wf {i : Instr} {s t : State} (hw : s.buf.wf = true) (h : exec i s = .next t) : t.buf.wf = true := by
  cases hb : i.rxByte? with
  | some c =>
    rw [exec_of_rxByte i c s hb] at h
    exact stateCycle_wf _ _ _ s t h hw
  | none =>
    cases i with
    | nop | init | read | cmdRsvd | frameOk => exact stateCycle_wf _ _ _ s t h hw
    | sIdle => exact exec_instr_wf .idle hw h
    | sArmed => exact exec_instr_wf .armed hw h
    | sAwaitPresence => exact exec_instr_wf .awaitPresence hw h
    | sAwaitFrame => exact exec_instr_wf .awaitFrame hw h
    | sCaptureSync => exact exec_instr_wf .captureSync hw h
    | sCaptureCopy => exact exec_instr_wf .captureCopy hw h
    | sFlush => exact exec_instr_wf .flush hw h
    | sValidate => exact exec_instr_wf .validate hw h
    | sExtract | ok => exact exec_instr_wf .extract hw h
    | sRestoreIdle => exact exec_instr_wf .restoreIdle hw h
    | noTag | timeout | tooShort | badFraming | badChecksum => cases h; exact hw
    | hexval | bcdbyte | checksum | validateFrame => cases h; exact hw
    | _ => cases hb

/-- Settles O54, by the format of the operation (`exec_wf`). -/
theorem everyOperationKeepsTheBufferCanonical : Obligations.EveryOperationKeepsTheBufferCanonical := fun _ _ _ hw h =>
  exec_wf hw h

end Sys2Proof.Machine

namespace Sys2Proof

/-! ### The encoding: decoder and encoder, the inner operation, and the rows FRAME_OK and FUNC (30_encoding.md) -/

/-! #### State codes, outcome codes and frames: what decodes and what is rejected (R71, R75, R76, U6) -/

theorem St.code_lt (st : St) : st.code.toNat < 10 := by cases st <;> decide

theorem St.ofCode?_code (st : St) : St.ofCode? st.code = some st := by cases st <;> rfl

theorem St.code_of_ofCode? {c : BitVec 4} {st : St} (h : St.ofCode? c = some st) : st.code = c := by
  unfold St.ofCode? at h
  split at h
  case h_11 => cases h
  all_goals next hc => cases h; exact BitVec.eq_of_toNat_eq hc.symm

theorem St.le_of_ofCode?_eq_none {c : BitVec 4} (h : St.ofCode? c = none) : 10 ≤ c.toNat := by
  revert c; decide

theorem decode_state_cases (c : BitVec 4) :
    (10 ≤ c.toNat ∧ decode (.state c) = .error (.stateCode c)) ∨
    (c.toNat < 10 ∧ ∃ st : St, st.code = c ∧ decode (.state c) = .ok st.instr) := by
  cases hc : St.ofCode? c with
  | none => exact .inl ⟨St.le_of_ofCode?_eq_none hc, by simp only [decode, hc]⟩
  | some st =>
    obtain rfl : st.code = c := St.code_of_ofCode? hc
    exact .inr ⟨st.code_lt, st, rfl, by simp only [decode, hc]⟩

theorem ResultCode.code_lt (r : ResultCode) : r.code.toNat < 6 := by cases r <;> decide

theorem ResultCode.code_of_ofCode? {c : BitVec 3} {r : ResultCode} (h : ResultCode.ofCode? c = some r) : r.code = c := by
  unfold ResultCode.ofCode? at h
  split at h
  case h_7 => cases h
  all_goals next hc => cases h; exact BitVec.eq_of_toNat_eq hc.symm

theorem ResultCode.le_of_ofCode?_eq_none {c : BitVec 3} (h : ResultCode.ofCode? c = none) : 6 ≤ c.toNat := by
  revert c; decide

theorem decode_status_cases (c : BitVec 3) :
    (6 ≤ c.toNat ∧ decode (.status c) = .error (.statusCode c)) ∨
    (c.toNat < 6 ∧ ∃ r : ResultCode, r.code = c ∧ decode (.status c) = .ok r.instr) := by
  cases hc : ResultCode.ofCode? c with
  | none => exact .inl ⟨ResultCode.le_of_ofCode?_eq_none hc, by simp only [decode, hc]⟩
  | some r =>
    obtain rfl : r.code = c := ResultCode.code_of_ofCode? hc
    exact .inr ⟨r.code_lt, r, rfl, by simp only [decode, hc]⟩

theorem decode_frame_cases (f : Frame) :
    (frameMatches f = false ∧ decode (.frame f) = .error (.frameSentinels f)) ∨
    (frameMatches f = true ∧ decode (.frame f) = .ok (.frameOk f)) := by
  cases hf : frameMatches f with
  | false => exact .inl ⟨rfl, by simp only [decode, hf, Bool.false_eq_true, if_false]⟩
  | true => exact .inr ⟨rfl, if_pos hf⟩

/-- Settles O3: by format, from what the decoder does with a code or a frame. -/
theorem rejectedWordsAreUnusedCodesAndUnmatchedFrames : Obligations.RejectedWordsAreUnusedCodesAndUnmatchedFrames := by
  refine ⟨fun c => ?_, fun c hc => ?_, fun c => ?_, fun c hc => ?_, fun f => ?_, fun f hf => ?_,
    fun _ => rfl, fun _ => rfl, fun _ => rfl, fun _ _ => rfl, fun _ => rfl, fun _ _ => rfl⟩
  · rcases decode_state_cases c with ⟨hge, hd⟩ | ⟨hlt, st, _, hd⟩
    · exact iff_of_true hd hge
    · exact iff_of_false (by rw [hd]; nofun) (Nat.not_le.mpr hlt)
  · exact ((decode_state_cases c).resolve_left fun h => absurd hc (Nat.not_lt.mpr h.1)).2
  · rcases decode_status_cases c with ⟨hge, hd⟩ | ⟨hlt, r, _, hd⟩
    · exact iff_of_true hd hge
    · exact iff_of_false (by rw [hd]; nofun) (Nat.not_le.mpr hlt)
  · exact ((decode_status_cases c).resolve_left fun h => absurd hc (Nat.not_lt.mpr h.1)).2
  · rcases decode_frame_cases f with ⟨hf, hd⟩ | ⟨hf, hd⟩
    · exact iff_of_true hd hf
    · exact iff_of_false (by rw [hd]; nofun) (by rw [hf]; nofun)
  · exact if_pos hf

/-! #### Commands and received bytes: every word decodes (R72, R73, R74) -/

theorem encode_decodeCmd (c : BitVec 2) : encode (decodeCmd c) = .cmd c ∧ (decodeCmd c).wellFormed = true := by
  revert c; decide

/-- The twenty byte values the tables of R73 and R74 select. -/
def selectedBytes : List Byte :=
  [0x02, 0x03, 0x0A, 0x0D, 0x30, 0x31, 0x32, 0x33, 0x34, 0x35, 0x36, 0x37, 0x38, 0x39, 0x41, 0x42, 0x43, 0x44, 0x45, 0x46]

/-- OTHER is well formed exactly on the bytes the tables do not select. -/
theorem wellFormed_other_iff (b : Byte) : (Instr.other b).wellFormed = true ↔ b ∉ selectedBytes := by
  simp only [Instr.wellFormed, isSentinel, isDigit, Config.stx, Config.etx, Config.lf, Config.cr, selectedBytes,
    List.mem_cons, List.not_mem_nil, or_false, ← BitVec.toNat_inj, BitVec.reduceToNat, Bool.and_eq_true,
    Bool.not_eq_true', Bool.or_eq_false_iff, beq_eq_false_iff_ne, ne_eq, Bool.and_eq_false_imp, decide_eq_true_eq,
    decide_eq_false_iff_not]
  omega

theorem decodeByte_of_not_selected {b : Byte} (h : b ∉ selectedBytes) : decodeByte b = .other b := by
  simp only [selectedBytes, List.mem_cons, List.not_mem_nil, or_false, ← BitVec.toNat_inj, BitVec.reduceToNat] at h
  unfold decodeByte
  split
  case h_21 => rfl
  all_goals omega

/-- The class of a byte has that byte, and is well formed: a selected byte has a row of its own, any other is OTHER. -/
theorem rxByte?_decodeByte (b : Byte) : (decodeByte b).rxByte? = some b ∧ (decodeByte b).wellFormed = true := by
  by_cases hb : b ∈ selectedBytes
  · have hrows : ∀ b ∈ selectedBytes, (decodeByte b).rxByte? = some b ∧ (decodeByte b).wellFormed = true := by decide
    exact hrows b hb
  · rw [decodeByte_of_not_selected hb]
    exact ⟨rfl, (wellFormed_other_iff b).mpr hb⟩

theorem encode_of_rxByte {i : Instr} {b : Byte} (h : i.rxByte? = some b) : encode i = .rxbyte b := by
  cases i <;> cases h <;> rfl

theorem decodeByte_of_rxByte {i : Instr} {b : Byte} (h : i.rxByte? = some b) (hw : i.wellFormed = true) :
    decodeByte b = i := by
  cases i with
  | other b' => cases h; exact decodeByte_of_not_selected ((wellFormed_other_iff _).mp hw)
  | _ => cases h <;> rfl

/-! #### Decoding and encoding are inverse (R70 to R76) -/

/-- Settles O1: the rows of RXBYTE by their byte, FRAME_OK by its well-formedness, and each other row decodes its own word. -/
theorem decodeOfEncodeIsTheOperation : Obligations.DecodeOfEncodeIsTheOperation := by
  intro i hw
  cases hb : i.rxByte? with
  | some b => rw [encode_of_rxByte hb]; exact congrArg Except.ok (decodeByte_of_rxByte hb hw)
  | none =>
    cases i with
    | frameOk f => exact if_pos hw
    | nop | init | read | cmdRsvd => rfl
    | hexval | bcdbyte | checksum | validateFrame => rfl
    | sIdle | sArmed | sAwaitPresence | sAwaitFrame | sCaptureSync | sCaptureCopy | sFlush | sValidate | sExtract => rfl
    | sRestoreIdle => rfl
    | ok | noTag | timeout | tooShort | badFraming | badChecksum => rfl
    | _ => cases hb

theorem encode_instr_of_state (st : St) : encode st.instr = .state st.code ∧ st.instr.wellFormed = true := by
  cases st <;> exact ⟨rfl, rfl⟩

theorem encode_instr_of_outcome (r : ResultCode) : encode r.instr = .status r.code ∧ r.instr.wellFormed = true := by
  cases r <;> exact ⟨rfl, rfl⟩

/-- Settles O2: by the format of the word. -/
theorem encodeOfDecodeIsTheWord : Obligations.EncodeOfDecodeIsTheWord := by
  intro w i h
  cases w with
  | cmd c => cases h; exact encode_decodeCmd c
  | rxbyte b =>
    cases h
    obtain ⟨hbyte, hw⟩ := rxByte?_decodeByte b
    exact ⟨encode_of_rxByte hbyte, hw⟩
  | frame f =>
    rcases decode_frame_cases f with ⟨_, hd⟩ | ⟨hf, hd⟩
    · cases hd.symm.trans h
    · cases hd.symm.trans h; exact ⟨rfl, hf⟩
  | state c =>
    rcases decode_state_cases c with ⟨_, hd⟩ | ⟨_, st, rfl, hd⟩
    · cases hd.symm.trans h
    · cases hd.symm.trans h; exact encode_instr_of_state st
  | status c =>
    rcases decode_status_cases c with ⟨_, hd⟩ | ⟨_, r, rfl, hd⟩
    · cases hd.symm.trans h
    · cases hd.symm.trans h; exact encode_instr_of_outcome r
  | hexval | bcdByte | checksum | validateFrame => cases h; exact ⟨rfl, rfl⟩

/-- Settles O5: each word of the tables is the word of its row. -/
theorem wordsWrittenFromTheTablesDecode : Obligations.WordsWrittenFromTheTablesDecode :=
  have hrow := decodeOfEncodeIsTheOperation
  ⟨hrow .read rfl, hrow .cmdRsvd rfl, hrow .stx rfl, hrow .cr rfl, hrow .hex9 rfl, hrow .hexF rfl,
    hrow (.other 0x61) (by decide), hrow .sCaptureSync rfl, hrow .sRestoreIdle rfl, hrow .badChecksum rfl,
    hrow (.frameOk 0x030A0D39383938373635343332313002) (by decide)⟩

end Sys2Proof

namespace Sys2Proof.Machine

/-! #### The digit values of the byte classes (R73, R74, R101) -/

theorem hexval_of_not_isDigit {b : Byte} (h : isDigit b = false) : hexval b = 0 := by
  simp only [isDigit, Bool.or_eq_false_iff, ← Bool.decide_and, decide_eq_false_iff_not] at h
  obtain ⟨hdecimal, hletter⟩ := h
  rw [hexval, if_neg hdecimal, if_neg hletter]

theorem digit?_decodeByte (b : Byte) : (decodeByte b).digit? = some (hexval b) := by
  by_cases hb : b ∈ selectedBytes
  · have hrows : ∀ b ∈ selectedBytes, (decodeByte b).digit? = some (hexval b) := by decide
    exact hrows b hb
  · have hother : (!isSentinel b && !isDigit b) = true := (wellFormed_other_iff b).mpr hb
    have hdigit : isDigit b = false := by
      rw [Bool.and_eq_true, Bool.not_eq_true', Bool.not_eq_true'] at hother
      exact hother.2
    rw [decodeByte_of_not_selected hb, hexval_of_not_isDigit hdigit]
    rfl

/-- Settles O6: a selected byte by its row, any other as OTHER. -/
theorem everyByteClassHasItsDigitValue : Obligations.EveryByteClassHasItsDigitValue := fun b =>
  ⟨(rxByte?_decodeByte b).1, digit?_decodeByte b⟩

/-- Settles O17: each of the four rows is a `codecCall` with its function's value. -/
theorem codecOperationsCompleteAndWriteNoRegister : Obligations.CodecOperationsCompleteAndWriteNoRegister :=
  fun _ _ _ _ _ _ => ⟨rfl, rfl, rfl, rfl⟩

/-! #### A frame as sixteen bytes, and its mask and match (R71) -/

theorem getLsbD_eq_frameByte (f : Frame) (j : Nat) : f.getLsbD j = (frameByte f (j / 8)).getLsbD (j % 8) := by
  rw [frameByte, BitVec.getLsbD_extractLsb', Nat.div_add_mod, decide_eq_true (Nat.mod_lt j (by decide)), Bool.true_and]

/-- Two frames with the same sixteen bytes are equal. -/
theorem frame_ext {f g : Frame} (h : ∀ i < Config.frameLen, frameByte f i = frameByte g i) : f = g := by
  refine BitVec.eq_of_getLsbD_eq fun j hj => ?_
  rw [getLsbD_eq_frameByte, getLsbD_eq_frameByte, h (j / 8) (Nat.div_lt_of_lt_mul hj)]

theorem frameByte_and (f g : Frame) (i : Nat) : frameByte (f &&& g) i = frameByte f i &&& frameByte g i :=
  BitVec.extractLsb'_and

/-- The offsets R71 compares. -/
def sentinelOffsets : List Nat := [0, 13, 14, 15]

theorem frameByte_frameMask :
    ∀ i < Config.frameLen, frameByte Config.frameMask i = if i ∈ sentinelOffsets then BitVec.allOnes 8 else 0#8 := by
  decide

theorem frameByte_frameMatch_of_not_sentinel :
    ∀ i < Config.frameLen, i ∉ sentinelOffsets → frameByte Config.frameMatch i = 0#8 := by
  decide

theorem lt_of_mem_sentinelOffsets : ∀ i ∈ sentinelOffsets, i < Config.frameLen := by decide

/-- The masked comparison is one comparison for each offset the mask selects. -/
theorem frameMatches_iff (f : Frame) :
    frameMatches f = true ↔ ∀ i ∈ sentinelOffsets, frameByte f i = frameByte Config.frameMatch i := by
  rw [frameMatches, beq_iff_eq]
  constructor
  · intro heq i hi
    have hbyte : frameByte (f &&& Config.frameMask) i = frameByte Config.frameMatch i := by rw [heq]
    rwa [frameByte_and, frameByte_frameMask i (lt_of_mem_sentinelOffsets i hi), if_pos hi, BitVec.and_allOnes] at hbyte
  · intro hbytes
    refine frame_ext fun i hi => ?_
    rw [frameByte_and, frameByte_frameMask i hi]
    by_cases hs : i ∈ sentinelOffsets
    · rw [if_pos hs, BitVec.and_allOnes, hbytes i hs]
    · rw [if_neg hs, BitVec.and_zero, frameByte_frameMatch_of_not_sentinel i hi hs]

/-- Settles O4: the four bytes of the match are the four sentinels. -/
theorem frameMatchIsStartMarkerAndTrailer : Obligations.FrameMatchIsStartMarkerAndTrailer := by
  intro f
  have hstx : frameByte Config.frameMatch 0 = Config.stx := by decide
  have hcr : frameByte Config.frameMatch 13 = Config.cr := by decide
  have hlf : frameByte Config.frameMatch 14 = Config.lf := by decide
  have hetx : frameByte Config.frameMatch 15 = Config.etx := by decide
  simp only [frameMatches_iff, sentinelOffsets, List.forall_mem_cons, List.not_mem_nil, false_imp_iff, implies_true,
    and_true, hstx, hcr, hlf, hetx, chkStx, chkTrailer, Bool.and_eq_true, beq_iff_eq, and_assoc]

/-! #### FRAME_OK: length and checksum decide (R115, R158) -/

/-- The verdict on a frame whose sentinels stand in place (R115). -/
theorem validateFrame_of_frameMatches {f : Frame} (h : frameMatches f = true) (n : BitVec 8) :
    validateFrame (frameByte f) n =
      if n.toNat ≠ 16 then .tooShort
      else if checksum (frameByte f) ≠ bcdByte (frameByte f 11) (frameByte f 12) then .badChecksum
      else .ok := by
  obtain ⟨hstx, htrailer⟩ := (frameMatchIsStartMarkerAndTrailer f).mp h
  simp only [validateFrame, hstx, htrailer, chkLen, chkSum, sentChecksum, Config.frameLen, Bool.not_true,
    Bool.false_eq_true, if_false, Bool.not_eq_true', beq_eq_false_iff_ne]

theorem lenOperand_toNat (len : BitVec 5) : (lenOperand len).toNat = len.toNat :=
  BitVec.toNat_setWidth_of_le (by decide)

theorem validateCycle_of_valid {b : Nat → Byte} {s : State} (h : validateFrame b (lenOperand s.len) = .ok) :
    validateCycle b s = .next (State.clock false false { s with st := .extract }) := by
  simp only [validateCycle, h]

theorem validateCycle_of_invalid {b : Nat → Byte} {s : State} {r : ResultCode}
    (h : validateFrame b (lenOperand s.len) = r) (hr : r ≠ .ok) :
    validateCycle b s = .next (State.clock false false (s.raise r)) := by
  cases r with
  | ok => exact absurd rfl hr
  | noTag | timeout | tooShort | badFraming | badChecksum => simp only [validateCycle, h]

/-- Outside VALIDATE the frame is not looked at (R70). -/
theorem frameCycle_of_ne_validate (f : Frame) {s : State} (h : s.st ≠ .validate) : frameCycle f s = exec s.st.instr s := by
  rw [exec_state_eq_stateCycle]
  unfold frameCycle stateCycle
  split
  case h_8 hst => exact absurd hst h
  all_goals rfl

theorem frameCycle_of_validate (f : Frame) {s : State} (h : s.st = .validate) :
    frameCycle f s = validateCycle (frameByte f) s := by
  simp only [frameCycle, stateCycle, h]

/-- Settles O35: FRAME_OK is the clock cycle with its frame, and the sentinels leave the verdict to length and checksum. -/
theorem sentinelsInPlaceLeaveLengthAndChecksum : Obligations.SentinelsInPlaceLeaveLengthAndChecksum := by
  intro f s hw
  have hverdict := validateFrame_of_frameMatches hw (lenOperand s.len)
  rw [lenOperand_toNat] at hverdict
  refine ⟨fun hst hlen => ?_, fun hst hlen hsum => ?_, fun hst hlen hsum => ?_, frameCycle_of_ne_validate f⟩
  · rw [if_pos hlen] at hverdict
    exact (frameCycle_of_validate f hst).trans (validateCycle_of_invalid hverdict (by decide))
  · rw [if_neg (not_not_intro hlen), if_pos hsum] at hverdict
    exact (frameCycle_of_validate f hst).trans (validateCycle_of_invalid hverdict (by decide))
  · rw [if_neg (not_not_intro hlen), if_neg (not_not_intro hsum)] at hverdict
    exact (frameCycle_of_validate f hst).trans (validateCycle_of_valid hverdict)

/-! #### The step is also the operation the state decodes in turn (R70, R130, R151) -/

theorem step_of_not_hwReset {s : State} (h : s.inputs.hwReset = false) :
    step s = stateCycle s.inputs.cmd s.rxHead s.buf.readByte s := by
  rw [step_eq, if_neg (by simp [h])]

theorem State.innerWord_cases {s : State} {w : OpWord} (h : s.innerWord = some w) :
    (s.st = .idle ∧ w = .cmd s.inputs.cmd) ∨ (∃ b, s.rxHead = some b ∧ w = .rxbyte b) ∨
    (s.st = .validate ∧ w = .frame s.buf.frame) := by
  unfold State.innerWord at h
  cases hst : s.st <;> rw [hst] at h
  case idle => exact .inl ⟨rfl, (Option.some.inj h).symm⟩
  case captureSync | captureCopy | flush =>
    obtain ⟨b, hhead, hw⟩ := Option.map_eq_some_iff.mp h
    exact .inr (.inl ⟨b, hhead, hw.symm⟩)
  case validate => exact .inr (.inr ⟨rfl, (Option.some.inj h).symm⟩)
  all_goals cases h

/-- The frame in the buffer decided as FRAME_OK is the clock cycle of VALIDATE on the buffer. -/
theorem frameCycle_buf_frame {s : State} (h : s.st = .validate) :
    frameCycle s.buf.frame s = stateCycle s.inputs.cmd s.rxHead s.buf.readByte s := by
  rw [frameCycle_of_validate _ h, validateCycle_congr _ _ s (frameByte_frame s.buf)]
  simp only [stateCycle, h]

/-- Settles O8: by the kind of word; each decodes to a row that is the clock cycle with that word. -/
theorem stepRunsTheInnerOperation : Obligations.StepRunsTheInnerOperation := by
  intro s w i hreset hword hdecode
  rw [step_of_not_hwReset hreset]
  rcases State.innerWord_cases hword with ⟨_, rfl⟩ | ⟨b, hhead, rfl⟩ | ⟨hst, rfl⟩
  · cases hdecode
    exact (exec_decodeCmd s.inputs.cmd s).symm
  · cases hdecode
    rw [exec_of_rxByte _ b s (rxByte?_decodeByte b).1, byteCycle, hhead]
  · rcases decode_frame_cases s.buf.frame with ⟨_, hd⟩ | ⟨_, hd⟩
    · cases hd.symm.trans hdecode
    · cases hd.symm.trans hdecode
      exact (frameCycle_buf_frame hst).symm

/-! #### The step after a word of the table has been placed -/

theorem decodeTableWord_eq_some {nbits w : Nat} {i : Instr} (h : decodeTableWord nbits w = some i) :
    ∃ word, tableOpWord nbits w = some word ∧ decode word = .ok i := by
  unfold decodeTableWord at h
  split at h
  · next word hword =>
    split at h
    · next hd => exact ⟨word, hword, hd.trans (congrArg Except.ok (Option.some.inj h))⟩
    · cases h
  · cases h

/-- A number of the table stands for a command, a state code, a received byte or a frame. -/
theorem tableOpWord_cases {nbits w : Nat} {word : OpWord} (h : tableOpWord nbits w = some word) :
    (∃ c, word = .cmd c) ∨ (∃ c, word = .state c) ∨ (∃ b, word = .rxbyte b) ∨ (∃ f, word = .frame f) := by
  unfold tableOpWord at h
  split_ifs at h <;> cases h
  · exact .inl ⟨_, rfl⟩
  · exact .inr (.inl ⟨_, rfl⟩)
  · exact .inr (.inr (.inl ⟨_, rfl⟩))
  · exact .inr (.inr (.inr ⟨_, rfl⟩))

theorem State.present_cmd (c : BitVec 2) (s : State) :
    (s.present (.cmd c)).inputs.hwReset = false ∧ (s.present (.cmd c)).innerWord = some (.cmd c) := ⟨rfl, rfl⟩

theorem State.popping_pops (s : State) : St.pops s.popping = true := by
  unfold State.popping
  split
  · assumption
  · rfl

theorem State.innerWord_of_pops {s : State} (h : St.pops s.st = true) : s.innerWord = s.rxHead.map .rxbyte := by
  unfold State.innerWord
  rcases (St.pops_eq_true_iff s.st).mp h with hst | hst | hst <;> rw [hst]

theorem State.present_rxbyte (b : Byte) (s : State) :
    (s.present (.rxbyte b)).inputs.hwReset = false ∧ (s.present (.rxbyte b)).innerWord = some (.rxbyte b) :=
  ⟨rfl, State.innerWord_of_pops (s := s.present (.rxbyte b)) s.popping_pops⟩

/-- A frame stored in the buffer reads back whole (R54, R71). -/
theorem Memory.frame_ofFrame (f : Frame) : (Memory.ofFrame f).frame = f :=
  frame_ext fun i hi => by rw [frameByte_frame _ i hi, Memory.readByte_ofFrame f i hi]

theorem State.present_frame (f : Frame) (s : State) :
    (s.present (.frame f)).inputs.hwReset = false ∧ (s.present (.frame f)).innerWord = some (.frame f) :=
  ⟨rfl, congrArg (some ∘ OpWord.frame) (Memory.frame_ofFrame f)⟩

theorem State.present_state (st : St) (s : State) :
    (s.present (.state st.code)).inputs.hwReset = false ∧ (s.present (.state st.code)).fetchWord = .state st.code := by
  have hplaced : s.present (.state st.code) = { s.withoutReset with st := st } := by
    simp only [State.present, St.ofCode?_code]
  rw [hplaced]
  exact ⟨rfl, rfl⟩

/-- Settles O10: a state code is placed at the program counter, any other word of the table where the state decodes it in turn. -/
theorem tableWordRunsInTheNextStep : Obligations.TableWordRunsInTheNextStep := by
  intro s nbits w i h
  obtain ⟨word, hword, hdecode⟩ := decodeTableWord_eq_some h
  have hplaced : s.withFetchWord nbits w = s.present word := by simp only [State.withFetchWord, hword]
  rw [hplaced]
  rcases tableOpWord_cases hword with ⟨c, rfl⟩ | ⟨c, rfl⟩ | ⟨b, rfl⟩ | ⟨f, rfl⟩
  · obtain ⟨hreset, hinner⟩ := s.present_cmd c
    exact stepRunsTheInnerOperation _ _ i hreset hinner hdecode
  · rcases decode_state_cases c with ⟨_, hd⟩ | ⟨_, st, rfl, _⟩
    · cases hd.symm.trans hdecode
    · obtain ⟨hreset, hfetch⟩ := s.present_state st
      obtain ⟨_, hw⟩ := encodeOfDecodeIsTheWord _ i hdecode
      exact stepRunsTheOperationAtTheProgramCounter _ i hreset (by rw [hfetch, hdecode]) hw
  · obtain ⟨hreset, hinner⟩ := s.present_rxbyte b
    exact stepRunsTheInnerOperation _ _ i hreset hinner hdecode
  · obtain ⟨hreset, hinner⟩ := s.present_frame f
    exact stepRunsTheInnerOperation _ _ i hreset hinner hdecode

end Sys2Proof.Machine

namespace Sys2Proof.Machine

/-! ### The hex and BCD decoder (40_hex_bcd_decoder.md) -/

/-! #### The value of a digit (R100, R101) -/

theorem toNat_hexval_of_decimal {b : Byte} (hlo : 0x30 ≤ b.toNat) (hhi : b.toNat ≤ 0x39) :
    (hexval b).toNat = b.toNat - 0x30 := by
  have hnoBorrow : (b - 0x30).toNat = b.toNat - 0x30 := BitVec.toNat_sub_of_le hlo
  rw [hexval, if_pos ⟨hlo, hhi⟩, BitVec.toNat_setWidth, hnoBorrow]
  omega

theorem toNat_hexval_of_letter {b : Byte} (hlo : 0x41 ≤ b.toNat) (hhi : b.toNat ≤ 0x46) :
    (hexval b).toNat = b.toNat - 0x41 + 10 := by
  have hnotDecimal : ¬ (0x30 ≤ b.toNat ∧ b.toNat ≤ 0x39) := by omega
  have hnoBorrow : (b - 0x41).toNat = b.toNat - 0x41 := BitVec.toNat_sub_of_le hlo
  have hten : (10 : Byte).toNat = 10 := rfl
  rw [hexval, if_neg hnotDecimal, if_pos ⟨hlo, hhi⟩, BitVec.toNat_setWidth, BitVec.toNat_add, hnoBorrow, hten]
  omega

theorem isDigit_eq_false_iff (b : Byte) :
    isDigit b = false ↔ ¬ (0x30 ≤ b.toNat ∧ b.toNat ≤ 0x39) ∧ ¬ (0x41 ≤ b.toNat ∧ b.toNat ≤ 0x46) := by
  simp only [isDigit, Bool.or_eq_false_iff, ← Bool.decide_and, decide_eq_false_iff_not]

/-- Settles O11: one lemma for each of the three ranges. -/
theorem hexvalOfDigitsAndOfOtherBytes : Obligations.HexvalOfDigitsAndOfOtherBytes := fun b =>
  ⟨toNat_hexval_of_decimal, toNat_hexval_of_letter, fun hdecimal hletter =>
    hexval_of_not_isDigit ((isDigit_eq_false_iff b).mpr ⟨hdecimal, hletter⟩)⟩

/-- The table of R74 is read backwards by `hexDigit`: its sixteen rows. -/
@[simp] theorem hexval_hexDigit (n : Nibble) : hexval (hexDigit n) = n := by
  revert n; decide

/-! #### The packed byte of two digits (R102, R103) -/

@[simp] theorem bcdByte_high_nibble (hi lo : Byte) : (bcdByte hi lo).extractLsb' 4 4 = hexval hi :=
  BitVec.extractLsb'_append_eq_left

@[simp] theorem bcdByte_low_nibble (hi lo : Byte) : (bcdByte hi lo).extractLsb' 0 4 = hexval lo :=
  BitVec.extractLsb'_append_eq_right

theorem bcdByte_eq_shiftLeft_or (hi lo : Byte) :
    bcdByte hi lo = ((hexval hi).setWidth 8 <<< 4) ||| (hexval lo).setWidth 8 := by
  have hwidth : (bcdByte hi lo).setWidth 8 = bcdByte hi lo := BitVec.setWidth_eq _
  rw [← hwidth]
  exact BitVec.setWidth_append_eq_shiftLeft_setWidth_or

/-- The digits of a byte's two nibbles pack back to it. -/
theorem bcdByte_hexDigit_nibbles (v : Byte) :
    bcdByte (hexDigit (v.extractLsb' 4 4)) (hexDigit (v.extractLsb' 0 4)) = v := by
  rw [bcdByte, hexval_hexDigit, hexval_hexDigit]
  exact BitVec.extractLsb'_append_extractLsb'

/-- Settles O12: the two nibbles, the shifted form, and for each byte the digits of its nibbles. -/
theorem bcdBytePacksTheFirstDigitHigh : Obligations.BcdBytePacksTheFirstDigitHigh :=
  ⟨fun hi lo => ⟨bcdByte_high_nibble hi lo, bcdByte_low_nibble hi lo, bcdByte_eq_shiftLeft_or hi lo⟩,
    fun v => ⟨_, _, bcdByte_hexDigit_nibbles v⟩⟩

/-- The packed byte depends on its two bytes only through their values. -/
theorem bcdByte_congr {hi hi' lo lo' : Byte} (hhi : hexval hi = hexval hi') (hlo : hexval lo = hexval lo') :
    bcdByte hi lo = bcdByte hi' lo' := by
  rw [bcdByte, bcdByte, hhi, hlo]

/-- Settles O13: a byte that is no digit has the value of '0', and nothing else of it reaches the packed byte. -/
theorem nonDigitPacksAsZeroDigit : Obligations.NonDigitPacksAsZeroDigit := by
  intro b x h
  have hzero : hexval b = hexval 0x30 := hexval_of_not_isDigit h
  exact ⟨bcdByte_congr hzero rfl, bcdByte_congr rfl hzero⟩

end Sys2Proof.Machine

namespace Sys2Proof.Machine

/-! ### The frame validator (41_frame_validator.md) -/

/-! #### The verdict, one equation for each outcome (R110 to R115) -/

theorem chkLen_iff (n : BitVec 8) : chkLen n = true ↔ n.toNat = 16 := beq_iff_eq

/-- The start marker and the trailer are the four sentinels (R111, R112). -/
theorem sentinels_iff (b : Nat → Byte) :
    chkStx b = true ∧ chkTrailer b = true ↔ b 0 = 0x02 ∧ b 13 = 0x0D ∧ b 14 = 0x0A ∧ b 15 = 0x03 := by
  simp only [chkStx, chkTrailer, Config.stx, Config.cr, Config.lf, Config.etx, Bool.and_eq_true, beq_iff_eq, and_assoc]

theorem chkSum_iff (b : Nat → Byte) : chkSum b = true ↔ checksum b = bcdByte (b 11) (b 12) := beq_iff_eq

/-- Checks 2 and 3 fail alike, so the verdict has four outcomes and three conditions in order. -/
theorem validateFrame_eq_ite (b : Nat → Byte) (n : BitVec 8) :
    validateFrame b n =
      if n.toNat ≠ 16 then .tooShort
      else if ¬ (b 0 = 0x02 ∧ b 13 = 0x0D ∧ b 14 = 0x0A ∧ b 15 = 0x03) then .badFraming
      else if checksum b ≠ bcdByte (b 11) (b 12) then .badChecksum
      else .ok := by
  simp only [ne_eq, ← chkLen_iff, ← sentinels_iff, ← chkSum_iff, validateFrame]
  cases chkStx b with
  | false => simp
  | true => simp

/-- Settles O15: in each of the four cases of the priority the verdict is known, and the other conditions exclude that case. -/
theorem verdictIsTheFirstFailedCheck : Obligations.VerdictIsTheFirstFailedCheck := by
  intro b n
  rw [validateFrame_eq_ite]
  by_cases hlen : n.toNat = 16
  · by_cases hframing : b 0 = 0x02 ∧ b 13 = 0x0D ∧ b 14 = 0x0A ∧ b 15 = 0x03
    · by_cases hsum : checksum b = bcdByte (b 11) (b 12)
      · simp [hlen, hframing, hsum]
      · simp [hlen, hframing, hsum]
    · rw [if_neg (not_not_intro hlen), if_pos hframing]
      simp only [hlen, hframing, reduceCtorEq, ne_eq, not_true_eq_false, not_false_eq_true, and_false, false_and, and_self]
  · simp [hlen]

/-! #### The fold of the pairs (R113) -/

theorem checksum_eq_foldl (b : Nat → Byte) :
    checksum b = [(b 1, b 2), (b 3, b 4), (b 5, b 6), (b 7, b 8), (b 9, b 10)].foldl
      (fun acc p => acc ^^^ bcdByte p.1 p.2) 0x00 := rfl

/-- Settles O14: two steps of the fold commute, so a permutation of the pairs folds to the same byte. -/
theorem checksumFoldsTheFivePairsInAnyOrder : Obligations.ChecksumFoldsTheFivePairsInAnyOrder := by
  intro b pairs hperm
  rw [checksum_eq_foldl]
  refine hperm.foldl_eq' (fun p _ q _ acc => ?_) 0x00
  rw [BitVec.xor_assoc, BitVec.xor_comm (bcdByte p.1 p.2), ← BitVec.xor_assoc]

/-! #### A sender's frame (R114, 95_test_vectors.md S6) -/

theorem tagOfBytes_eq_ofFn (b : Nat → Byte) : tagOfBytes b = Vector.ofFn fun i : Fin 10 => b (1 + i.val) := rfl

theorem getElem_tagOfBytes (b : Nat → Byte) (i : Fin 10) : (tagOfBytes b)[i] = b (1 + i.val) := by
  rw [tagOfBytes_eq_ofFn]
  exact Vector.getElem_ofFn i.isLt

/-- Settles O16: the two digits a sender writes pack back to the checksum, so no check fails. -/
theorem frameOfASenderValidates : Obligations.FrameOfASenderValidates := by
  intro b hstx hcr hlf hetx hhi hlo
  obtain ⟨_, _, _, hvalid, _, _⟩ := verdictIsTheFirstFailedCheck b 16
  have hsum : checksum b = bcdByte (b 11) (b 12) := by rw [hhi, hlo, bcdByte_hexDigit_nibbles]
  exact ⟨hvalid.mpr ⟨rfl, ⟨hstx, hcr, hlf, hetx⟩, hsum⟩, getElem_tagOfBytes b⟩

end Sys2Proof.Machine

namespace Sys2Proof.Machine

/-! ### The capture of a frame (42_frame_capture.md) -/

/-! #### Every step keeps the invariants of the capture (R23, R131, R171)

A step clears the buffer, leaves it as it is, stores the start marker, or stores a byte at `len`: one lemma for each. -/

/-- The invariants are about the registers only. -/
theorem CaptureInv.of_registers {t u : State} (hr : t.registers = u.registers) (h : CaptureInv u) : CaptureInv t := by
  cases t
  cases u
  cases hr
  exact ⟨h.canonical, h.lenBound, h.tailZero, h.nothingYet, h.copyRange, h.startMarker, h.endMarkerLast, h.copyNoEnd⟩

theorem CaptureInv.of_cleared {u : State} (hbuf : u.buf = []) (hlen : u.len = 0) (hcopy : u.st ≠ .captureCopy) :
    CaptureInv u where
  canonical := by rw [hbuf]; rfl
  lenBound := by simp [hlen]
  tailZero a _ := by rw [hbuf]; rfl
  nothingYet _ := hlen
  copyRange h := absurd h hcopy
  startMarker h := by simp [hlen] at h
  endMarkerLast a _ h := by simp [hlen] at h
  copyNoEnd h := absurd h hcopy

/-- A step that stores nothing, and neither enters CAPTURE_COPY nor returns to the time before the capture. -/
theorem CaptureInv.of_kept {s u : State} (h : CaptureInv s) (hbuf : u.buf = s.buf) (hlen : u.len = s.len)
    (hcopy : u.st ≠ .captureCopy) (hbefore : St.beforeCapture u.st = true → St.beforeCapture s.st = true) :
    CaptureInv u where
  canonical := hbuf ▸ h.canonical
  lenBound := hlen ▸ h.lenBound
  tailZero := hbuf ▸ hlen ▸ h.tailZero
  nothingYet hu := hlen.trans (h.nothingYet (hbefore hu))
  copyRange hu := absurd hu hcopy
  startMarker := hbuf ▸ hlen ▸ h.startMarker
  endMarkerLast := hbuf ▸ hlen ▸ h.endMarkerLast
  copyNoEnd hu := absurd hu hcopy

/-- R132: in CAPTURE_SYNC nothing has been captured, so the start marker is the only byte of the buffer. -/
theorem CaptureInv.start {s : State} (h : CaptureInv s) (hst : s.st = .captureSync) :
    CaptureInv { s with buf := s.buf.writeByte 0 0x02, len := 1, st := .captureCopy } where
  canonical := Memory.wf_writeByte s.buf 0 0x02 (by decide) h.canonical
  lenBound := show (1 : BitVec 5).toNat ≤ 16 by decide
  tailZero a (ha : 1 ≤ a) := by
    have hempty : s.len = 0 := h.nothingYet (by rw [hst]; rfl)
    exact (Memory.readByte_writeByte_of_ne s.buf 0 0x02 a (by omega)).trans (h.tailZero a (by simp [hempty]))
  nothingYet hu := nomatch hu
  copyRange _ := show 1 ≤ (1 : BitVec 5).toNat ∧ (1 : BitVec 5).toNat ≤ 15 by decide
  startMarker _ := Memory.readByte_writeByte_same s.buf 0 0x02
  endMarkerLast a _ (ha : a + 1 < 1) := by omega
  copyNoEnd _ a _ (ha : a < 1) := by omega

/-- R133: the byte stored at `len` is new at the end, and the copy goes on only if it is no end marker. -/
theorem CaptureInv.copy {s : State} (h : CaptureInv s) (hst : s.st = .captureCopy) (c : Byte) :
    CaptureInv { s.capture c with st := if isEtx c || s.len.toNat + 1 == 16 then .flush else .captureCopy } := by
  obtain ⟨hlow, hhigh⟩ := h.copyRange hst
  have hlen : (s.len + 1).toNat = s.len.toNat + 1 := len_add_one s.len (by omega)
  have hread := Memory.readByte_writeByte s.buf s.len.toNat c
  rw [State.capture_of_lt c s (by omega)]
  generalize hnext : (if isEtx c || s.len.toNat + 1 == 16 then St.flush else .captureCopy) = next
  have hon : next = .captureCopy → c ≠ 0x03 ∧ s.len.toNat + 1 ≠ 16 := by
    rintro rfl
    simpa [isEtx, Config.etx] using hnext
  have hafter : St.beforeCapture next = false := by
    subst hnext
    split <;> rfl
  refine
    { canonical := Memory.wf_writeByte s.buf _ c (show s.len.toNat < 16 by omega) h.canonical
      lenBound := hlen.trans_le (by omega)
      tailZero := fun a (ha : (s.len + 1).toNat ≤ a) => ?_
      nothingYet := fun hu => absurd (hafter.symm.trans hu) Bool.false_ne_true
      copyRange := fun hcopy => ?_
      startMarker := fun _ => ?_
      endMarkerLast := fun a h1 (ha : a + 1 < (s.len + 1).toNat) => ?_
      copyNoEnd := fun hcopy a h1 (ha : a < (s.len + 1).toNat) => ?_ }
  · rw [hread, if_neg (by omega)]
    exact h.tailZero a (by omega)
  · obtain ⟨_, hmore⟩ := hon hcopy
    show 1 ≤ (s.len + 1).toNat ∧ (s.len + 1).toNat ≤ 15
    omega
  · rw [hread, if_neg (by omega)]
    exact h.startMarker hlow
  · rw [hread, if_neg (by omega)]
    exact h.copyNoEnd hst a h1 (by omega)
  · obtain ⟨hc, _⟩ := hon hcopy
    rw [hread]
    split
    · exact hc
    · exact h.copyNoEnd hst a h1 (by omega)

/-- Settles O50, by the row of the state's rule (`step_registers`). -/
theorem stepKeepsCaptureInvariants : Obligations.StepKeepsCaptureInvariants := by
  intro s t h hstep
  rcases step_registers s t hstep with ⟨_, hreset⟩ | ⟨_, ⟨_, hidle⟩ | ⟨hst, harmed⟩ | ⟨hst, hpresence⟩ | ⟨hst, hframe⟩ |
    ⟨hst, hsync⟩ | ⟨hst, hcopy⟩ | ⟨_, hflush⟩ | ⟨_, hvalidate⟩ | ⟨_, hextract⟩ | ⟨_, hrestore⟩⟩
  · exact State.reset_captureInv.of_registers hreset
  · rcases hidle with ⟨_, hinit⟩ | ⟨_, hread⟩ | hstay
    · exact .of_registers hinit (.of_cleared rfl rfl nofun)
    · exact .of_registers hread (.of_cleared rfl rfl nofun)
    · exact h.of_registers hstay
  · exact .of_registers harmed (h.of_kept rfl rfl nofun fun _ => hst ▸ rfl)
  · rcases hpresence with ⟨_, hsettle⟩ | hnoTag | hpresent
    · exact .of_registers hsettle (h.of_kept rfl rfl nofun fun _ => hst ▸ rfl)
    · exact .of_registers hnoTag (h.of_kept rfl rfl nofun nofun)
    · exact .of_registers hpresent (h.of_kept rfl rfl nofun fun _ => hst ▸ rfl)
  · rcases hframe with ⟨_, hpoll⟩ | htimeout | hready
    · exact .of_registers hpoll (h.of_kept rfl rfl nofun fun _ => hst ▸ rfl)
    · exact .of_registers htimeout (h.of_kept rfl rfl nofun nofun)
    · exact .of_registers hready (h.of_kept rfl rfl nofun fun _ => hst ▸ rfl)
  · rcases hsync with hempty | hstx | hskip
    · exact .of_registers hempty (h.of_kept rfl rfl nofun nofun)
    · exact .of_registers hstx (h.start hst)
    · exact .of_registers hskip (h.of_kept rfl rfl nofun fun _ => hst ▸ rfl)
  · rcases hcopy with hempty | ⟨c, hbyte⟩
    · exact .of_registers hempty (h.of_kept rfl rfl nofun nofun)
    · exact .of_registers hbyte (h.copy hst c)
  · rcases hflush with hmore | hempty
    · exact .of_registers hmore (h.of_kept rfl rfl nofun nofun)
    · exact .of_registers hempty (h.of_kept rfl rfl nofun nofun)
  · rcases hvalidate with ⟨_, hvalid⟩ | ⟨_, _, herror⟩
    · exact .of_registers hvalid (h.of_kept rfl rfl nofun nofun)
    · exact .of_registers herror (h.of_kept rfl rfl nofun nofun)
  · exact .of_registers hextract (h.of_kept rfl rfl nofun nofun)
  · exact .of_registers hrestore (h.of_kept rfl rfl nofun nofun)

/-! #### One clock cycle of the capture (R132, R133, R134) -/

theorem captureSyncCycle_of_stx (s : State) :
    captureSyncCycle (some 0x02) s =
      .next (State.clock true false { s with buf := s.buf.writeByte 0 0x02, len := 1, st := .captureCopy }) := rfl

theorem captureSyncCycle_of_ne_stx {c : Byte} (h : c ≠ 0x02) (s : State) :
    captureSyncCycle (some c) s = .next (State.clock true false { s with st := .captureSync }) :=
  if_neg (mt beq_iff_eq.mp h)

/-- The start marker is stored at offset 0 and nowhere else. -/
theorem captureSyncCycle_stores (s : State) :
    ∃ buf' : Memory,
      captureSyncCycle (some 0x02) s =
        .next (State.clock true false { s with buf := buf', len := 1, st := .captureCopy }) ∧
      buf'.readByte 0 = 0x02 ∧ ∀ a : Nat, a ≠ 0 → buf'.readByte a = s.buf.readByte a :=
  ⟨_, captureSyncCycle_of_stx s, Memory.readByte_writeByte_same s.buf 0 0x02, Memory.readByte_writeByte_of_ne s.buf 0 0x02⟩

/-- The byte is stored at offset `len` and nowhere else. -/
theorem captureCopyCycle_stores {s : State} (c : Byte) (h : s.len.toNat < 16) :
    ∃ buf' : Memory,
      captureCopyCycle (some c) s = .next (State.clock true false
        { s with
          buf := buf', len := s.len + 1
          st := if c = 0x03 ∨ s.len.toNat + 1 = 16 then .flush else .captureCopy }) ∧
      buf'.readByte s.len.toNat = c ∧ ∀ a : Nat, a ≠ s.len.toNat → buf'.readByte a = s.buf.readByte a :=
  ⟨_, captureCopyCycle_store s c h, Memory.readByte_writeByte_same s.buf _ c, Memory.readByte_writeByte_of_ne s.buf _ c⟩

/-- At an offset that does not exist the byte is counted, while the count fits the register. -/
theorem captureCopyCycle_counts {s : State} (c : Byte) (h : 16 ≤ s.len.toNat) :
    ∃ len' : BitVec 5,
      captureCopyCycle (some c) s = .next (State.clock true false
        { s with len := len', st := if c = 0x03 then .flush else .captureCopy }) ∧
      (s.len.toNat < 31 → len'.toNat = s.len.toNat + 1) :=
  ⟨_, captureCopyCycle_past s c h, fun hfit => by rw [countByte_of_lt c s.len hfit, len_add_one s.len hfit]⟩

theorem exec_sCaptureSync_of_nil {s : State} (h : s.queue = []) :
    exec .sCaptureSync s = .next (State.clock false false { s with st := .flush }) :=
  congrArg (captureSyncCycle · s) (State.rxHead_nil s h)

theorem exec_sCaptureSync_of_cons {s : State} {c : Byte} {q : List Byte} (h : s.queue = c :: q) :
    exec .sCaptureSync s = captureSyncCycle (some c) s :=
  congrArg (captureSyncCycle · s) (State.rxHead_cons s c q h)

theorem exec_sCaptureCopy_of_nil {s : State} (h : s.queue = []) :
    exec .sCaptureCopy s = .next (State.clock false false { s with st := .flush }) :=
  congrArg (captureCopyCycle · s) (State.rxHead_nil s h)

theorem exec_sCaptureCopy_of_cons {s : State} {c : Byte} {q : List Byte} (h : s.queue = c :: q) :
    exec .sCaptureCopy s = captureCopyCycle (some c) s :=
  congrArg (captureCopyCycle · s) (State.rxHead_cons s c q h)

theorem exec_sFlush_of_nil {s : State} (h : s.queue = []) :
    exec .sFlush s = .next (State.clock false false { s with st := .validate }) :=
  congrArg (flushCycle · s) (State.rxHead_nil s h)

theorem exec_sFlush_of_cons {s : State} {c : Byte} {q : List Byte} (h : s.queue = c :: q) :
    exec .sFlush s = .next (State.clock true false { s with st := .flush }) :=
  congrArg (flushCycle · s) (State.rxHead_cons s c q h)

/-- Settles O28, by the head of the queue. -/
theorem captureSyncHuntsForTheStartMarker : Obligations.CaptureSyncHuntsForTheStartMarker := by
  intro s
  refine ⟨exec_sCaptureSync_of_nil, fun q hq => ?_, fun c q hq hc => ?_⟩
  · rw [exec_sCaptureSync_of_cons hq]
    exact captureSyncCycle_stores s
  · rw [exec_sCaptureSync_of_cons hq]
    exact captureSyncCycle_of_ne_stx hc s

/-- Settles O29, by the head of the queue and whether the offset `len` exists. -/
theorem captureCopyStoresAtLen : Obligations.CaptureCopyStoresAtLen := by
  intro s
  refine ⟨exec_sCaptureCopy_of_nil, fun c q hq hlen => ?_, fun c q hq hlen => ?_⟩
  · obtain ⟨buf', hcycle, hstored, hother⟩ := captureCopyCycle_stores c hlen
    exact ⟨buf', (exec_sCaptureCopy_of_cons hq).trans hcycle, len_add_one s.len (by omega), hstored, hother⟩
  · rw [exec_sCaptureCopy_of_cons hq]
    exact captureCopyCycle_counts c hlen

/-- Settles O30, by whether the queue is empty. -/
theorem flushDiscardsUntilEmpty : Obligations.FlushDiscardsUntilEmpty := by
  refine fun s => ⟨exec_sFlush_of_nil, fun hne => ?_⟩
  obtain ⟨c, q, hq⟩ := List.exists_cons_of_ne_nil hne
  exact exec_sFlush_of_cons hq

/-! #### The 21 classes of a received byte (R130, R137) -/

theorem byteCycle_of_captureSync (c : Byte) {s : State} (h : s.st = .captureSync) :
    byteCycle c s = captureSyncCycle (some c) s := by
  simp only [byteCycle, stateCycle, h]

theorem byteCycle_of_captureCopy (c : Byte) {s : State} (h : s.st = .captureCopy) :
    byteCycle c s = captureCopyCycle (some c) s := by
  simp only [byteCycle, stateCycle, h]

/-- Every byte is discarded, unexamined. -/
theorem byteCycle_of_flush (c : Byte) {s : State} (h : s.st = .flush) :
    byteCycle c s = .next (State.clock true false { s with st := .flush }) := by
  simp only [byteCycle, stateCycle, h, flushCycle]

/-- Outside the three popping states the byte is not looked at (R130). -/
theorem byteCycle_of_not_pops (c : Byte) {s : State} (h : St.pops s.st = false) : byteCycle c s = exec s.st.instr s := by
  rw [exec_state_eq_stateCycle]
  unfold byteCycle stateCycle
  cases hst : s.st with
  | captureSync | captureCopy | flush => rw [hst] at h; cases h
  | idle | armed | awaitPresence | awaitFrame | validate | extract | restoreIdle => rfl

/-- Writing the state the sequencer is in changes nothing. -/
theorem State.with_st_eq_self {s : State} {x : St} (h : s.st = x) : { s with st := x } = s := by
  subst h
  rfl

/-- Settles O34: a row of RXBYTE is `byteCycle` with its byte, which is the cycle of the state. -/
theorem receivedByteByState : Obligations.ReceivedByteByState := by
  intro i c s hbyte
  rw [exec_of_rxByte i c s hbyte]
  refine ⟨fun hst hc => ?_, fun hst hc => ?_, fun hst hlen => ?_, fun hst hlen => ?_, fun hst => ?_, byteCycle_of_not_pops c⟩
  · rw [byteCycle_of_captureSync c hst, hc]
    exact captureSyncCycle_stores s
  · rw [byteCycle_of_captureSync c hst, captureSyncCycle_of_ne_stx hc, State.with_st_eq_self hst]
  · rw [byteCycle_of_captureCopy c hst]
    exact captureCopyCycle_stores c hlen
  · rw [byteCycle_of_captureCopy c hst]
    exact captureCopyCycle_counts c hlen
  · rw [byteCycle_of_flush c hst, State.with_st_eq_self hst]

/-! #### Runs on a quiet transport (R134, R136, R232) -/

/-- The next `k` moves of the environment are quiet. -/
def State.quietFor (k : Nat) (s : State) : Prop := ∀ j : Nat, j < k → isQuiet (s.moveAt j) = true

theorem State.quietFor.move {k : Nat} {s : State} (h : s.quietFor (k + 1)) : isQuiet s.move = true := by
  rw [← State.moveAt_zero]
  exact h 0 (Nat.succ_pos k)

/-- One edge later one quiet move less is to come. -/
theorem State.quietFor.of_edge {k : Nat} {s t : State} (h : s.quietFor (k + 1)) (hscript : t.script = s.script.tail)
    (hcycle : t.cycle = s.cycle + 1) : t.quietFor k := by
  intro j hj
  rw [State.moveAt_succ s t j hscript hcycle]
  exact h (j + 1) (Nat.succ_lt_succ hj)

theorem isQuiet_iff (m : EnvMove) :
    isQuiet m = true ↔ m.hwReset = false ∧ m.arrivals = [] ∧ m.restart = none ∧ m.overflow = none := by
  simp [isQuiet, and_assoc]

theorem transportEdge_of_quiet {m : EnvMove} (h : isQuiet m = true) (pop : Bool) (q : List Byte) :
    transportEdge m pop false q = if pop then q.tail else q := by
  obtain ⟨_, harrivals, _, hover⟩ := (isQuiet_iff m).mp h
  rw [transportEdge_of_not_begin hover, harrivals, List.append_nil]

/-- The queue after an edge that pops, on a quiet transport. -/
theorem State.queue_pop_of_quiet {s : State} {c : Byte} {q : List Byte} (hquiet : isQuiet s.move = true)
    (hq : s.queue = c :: q) : transportEdge s.move true false s.queue = q :=
  (transportEdge_of_quiet hquiet true s.queue).trans (congrArg List.tail hq)

theorem step_of_quiet {s : State} (h : isQuiet s.move = true) : step s = exec s.st.instr s := by
  obtain ⟨hreset, _⟩ := (isQuiet_iff s.move).mp h
  rw [step_of_not_hwReset (s := s) hreset, exec_state_eq_stateCycle]

/-- FLUSH empties the queue, one byte per step, and then sees it empty. -/
theorem run_flush (k : Nat) : ∀ s : State, s.st = .flush → s.queue.length = k → s.quietFor (k + 1) →
    ∃ t : State, Host.Core.run Sys2Proof.core (k + 1) s = .next t ∧
      t.registers = { s.registers with st := .validate } ∧ t.queue = [] := by
  induction k with
  | zero =>
    intro s hst hlen hquiet
    have hq : s.queue = [] := List.length_eq_zero_iff.mp hlen
    have hstep : step s = .next (State.clock false false { s with st := .validate }) := by
      rw [step_of_quiet hquiet.move, hst]
      exact exec_sFlush_of_nil hq
    refine ⟨_, run_succ 0 s _ hstep, rfl, ?_⟩
    exact (transportEdge_of_quiet hquiet.move false s.queue).trans hq
  | succ k ih =>
    intro s hst hlen hquiet
    obtain ⟨c, q, hq⟩ := List.exists_cons_of_length_eq_add_one hlen
    have hstep : step s = .next (State.clock true false { s with st := .flush }) := by
      rw [step_of_quiet hquiet.move, hst]
      exact exec_sFlush_of_cons hq
    have hpop : transportEdge s.move true false s.queue = q := State.queue_pop_of_quiet hquiet.move hq
    have hrest : q.length = k := by
      rw [hq, List.length_cons] at hlen
      exact Nat.succ.inj hlen
    obtain ⟨t, hrun, hregs, hempty⟩ := ih (State.clock true false { s with st := .flush }) rfl
      ((congrArg List.length hpop).trans hrest) (hquiet.of_edge rfl rfl)
    exact ⟨t, (run_succ _ s _ hstep).trans hrun, hregs, hempty⟩

/-- Settles O57, by induction on the number of queued bytes (`run_flush`). -/
theorem flushEndsOnAQuietTransport : Obligations.FlushEndsOnAQuietTransport := fun k s hst hlen hquiet =>
  run_flush k s hst hlen fun j hj => hquiet j (Nat.lt_succ_iff.mp hj)

/-! #### The capture of a clean frame (R132, R133, R136) -/

/-- A memory after a list of bytes has been written from an offset on. -/
def Memory.writeFrom (m : Memory) (a : Nat) : List Byte → Memory
  | [] => m
  | c :: bytes => Memory.writeFrom (m.writeByte a c) (a + 1) bytes

theorem Memory.readByte_writeFrom_of_lt (bytes : List Byte) : ∀ (m : Memory) (a x : Nat), x < a →
    (m.writeFrom a bytes).readByte x = m.readByte x := by
  induction bytes with
  | nil => intros; rfl
  | cons c bytes ih =>
    intro m a x hx
    exact (ih _ _ _ (by omega)).trans (Memory.readByte_writeByte_of_ne m a c x (by omega))

/-- The byte listed for the offset, and past the list the byte from before. -/
theorem Memory.readByte_writeFrom (bytes : List Byte) : ∀ (m : Memory) (a i : Nat),
    (m.writeFrom a bytes).readByte (a + i) = bytes[i]?.getD (m.readByte (a + i)) := by
  induction bytes with
  | nil => intros; rfl
  | cons c bytes ih =>
    intro m a i
    cases i with
    | zero =>
      exact (Memory.readByte_writeFrom_of_lt bytes _ _ _ (by omega)).trans (Memory.readByte_writeByte_same m a c)
    | succ i =>
      rw [show a + (i + 1) = a + 1 + i by omega, List.getElem?_cons_succ, Memory.writeFrom, ih,
        Memory.readByte_writeByte_of_ne m a c _ (by omega)]

theorem step_captureSync_of_quiet {s : State} {q : List Byte} (hquiet : isQuiet s.move = true) (hst : s.st = .captureSync)
    (hq : s.queue = 0x02 :: q) :
    step s = .next (State.clock true false { s with buf := s.buf.writeByte 0 0x02, len := 1, st := .captureCopy }) := by
  rw [step_of_quiet hquiet, hst]
  exact (exec_sCaptureSync_of_cons hq).trans (captureSyncCycle_of_stx s)

theorem step_captureCopy_of_quiet {s : State} {c : Byte} {q : List Byte} (hquiet : isQuiet s.move = true)
    (hst : s.st = .captureCopy) (hq : s.queue = c :: q) (hlen : s.len.toNat < 16) :
    step s = .next (State.clock true false
      { s with
        buf := s.buf.writeByte s.len.toNat c
        len := s.len + 1
        st := if c = 0x03 ∨ s.len.toNat + 1 = 16 then .flush else .captureCopy }) := by
  rw [step_of_quiet hquiet, hst]
  exact (exec_sCaptureCopy_of_cons hq).trans (captureCopyCycle_store s c hlen)

/-- CAPTURE_COPY stores the bytes up to the sixteenth in order, if no end marker comes before the last of them. -/
theorem run_captureCopy (bytes rest : List Byte) : ∀ (c : Byte) (s : State), s.st = .captureCopy →
    s.queue = c :: (bytes ++ rest) → s.len.toNat + bytes.length = 15 → 0x03 ∉ (c :: bytes).dropLast →
    s.quietFor (bytes.length + 1) →
    ∃ t : State, Host.Core.run Sys2Proof.core (bytes.length + 1) s = .next t ∧
      t.registers =
        { s.registers with st := .flush, buf := s.buf.writeFrom s.len.toNat (c :: bytes), len := 16 } ∧
      t.queue = rest := by
  induction bytes with
  | nil =>
    intro c s hst hq hlen _ hquiet
    have hfifteen : s.len.toNat = 15 := hlen
    have hstep := step_captureCopy_of_quiet hquiet.move hst hq (by omega)
    rw [if_pos (.inr (by omega)), show s.len + 1 = 16 by bv_omega] at hstep
    exact ⟨_, run_succ 0 s _ hstep, rfl, State.queue_pop_of_quiet hquiet.move hq⟩
  | cons d bytes ih =>
    intro c s hst hq hlen hend hquiet
    rw [List.length_cons] at hlen
    rw [List.dropLast_cons_cons, List.mem_cons, not_or] at hend
    obtain ⟨hc, hend⟩ := hend
    have hcount : (s.len + 1).toNat = s.len.toNat + 1 := len_add_one s.len (by omega)
    have hstep := step_captureCopy_of_quiet hquiet.move hst hq (by omega)
    rw [if_neg (not_or.mpr ⟨Ne.symm hc, by omega⟩)] at hstep
    obtain ⟨t, hrun, hregs, hqueue⟩ :=
      ih d (State.clock true false { s with buf := s.buf.writeByte s.len.toNat c, len := s.len + 1, st := .captureCopy }) rfl
        (State.queue_pop_of_quiet hquiet.move hq) (show (s.len + 1).toNat + bytes.length = 15 by omega) hend
        (hquiet.of_edge rfl rfl)
    rw [State.clock_buf, State.clock_len, hcount] at hregs
    exact ⟨t, (run_succ _ s _ hstep).trans hrun, hregs, hqueue⟩

/-- Sixteen bytes from the start marker on are stored from offset 0 on. -/
theorem run_capture {s : State} {bytes rest : List Byte} (hst : s.st = .captureSync)
    (hq : s.queue = 0x02 :: (bytes ++ rest)) (hlen : bytes.length = 15) (hend : 0x03 ∉ bytes.dropLast)
    (hquiet : s.quietFor 16) :
    ∃ t : State, Host.Core.run Sys2Proof.core 16 s = .next t ∧
      t.registers = { s.registers with st := .flush, buf := s.buf.writeFrom 0 (0x02 :: bytes), len := 16 } ∧
      t.queue = rest := by
  obtain ⟨c, bytes, rfl⟩ := List.exists_cons_of_length_eq_add_one hlen
  have hfourteen : bytes.length = 14 := Nat.succ.inj hlen
  obtain ⟨t, hrun, hregs, hqueue⟩ := run_captureCopy bytes rest c
    (State.clock true false { s with buf := s.buf.writeByte 0 0x02, len := 1, st := .captureCopy }) rfl
    (State.queue_pop_of_quiet hquiet.move hq) (by rw [hfourteen]; rfl) hend (hfourteen ▸ hquiet.of_edge rfl rfl)
  rw [hfourteen] at hrun
  exact ⟨t, (run_succ 15 s _ (step_captureSync_of_quiet hquiet.move hst hq)).trans hrun, hregs, hqueue⟩

/-- Settles O58: the frame is a start marker and fifteen bytes, of which only the last is an end marker. -/
theorem cleanFrameIsCapturedInSixteenSteps : Obligations.CleanFrameIsCapturedInSixteenSteps := by
  intro s frame rest hst hq hlen hstx _ hend hquiet
  obtain ⟨c, bytes, rfl⟩ := List.exists_cons_of_length_eq_add_one hlen
  obtain rfl : c = 0x02 := by simpa using hstx
  have hfifteen : bytes.length = 15 := Nat.succ.inj hlen
  have hno : 0x03 ∉ bytes.dropLast := by
    intro hmem
    obtain ⟨i, hi, hget⟩ := List.mem_iff_getElem.mp hmem
    rw [List.length_dropLast] at hi
    refine hend (i + 1) (by omega) (by omega) ?_
    rw [List.getElem?_cons_succ, ← hget, List.getElem_dropLast, List.getElem?_eq_getElem]
  obtain ⟨t, hrun, hregs, hqueue⟩ := run_capture hst hq hfifteen hno hquiet
  have hbuf : t.buf = s.buf.writeFrom 0 (0x02 :: bytes) := congrArg Registers.buf hregs
  have hread (i : Nat) : t.buf.readByte i = (0x02 :: bytes)[i]?.getD (s.buf.readByte i) := by
    rw [hbuf]
    simpa only [Nat.zero_add] using Memory.readByte_writeFrom (0x02 :: bytes) s.buf 0 i
  refine ⟨t, hrun, congrArg Registers.st hregs, congrArg Registers.len hregs, hqueue, fun i hi => ?_,
    congrArg Registers.tag hregs, congrArg Registers.tmr hregs, congrArg Registers.res hregs,
    congrArg Registers.status hregs, congrArg Registers.done hregs, congrArg Registers.inited hregs,
    congrArg Registers.rstTrig hregs, fun a ha => ?_⟩
  · rw [hread, List.getElem?_eq_getElem (by omega), Option.getD_some]
  · rw [hread, List.getElem?_eq_none (by omega), Option.getD_none]

end Sys2Proof.Machine

namespace Sys2Proof.Machine

/-! ### The read cycle controller (43_read_cycle_controller.md) -/

theorem of_eq_false_of_eq_true {p : Prop} {b : Bool} (hfalse : b = false) (htrue : b = true) : p :=
  absurd (hfalse.symm.trans htrue) Bool.false_ne_true

/-! #### The commands, in IDLE and outside it (R151 to R154) -/

theorem idleCycle_nop (s : State) : idleCycle 0b00 s = .next (State.clock false false s) := rfl

theorem idleCycle_cmdRsvd (s : State) : idleCycle 0b11 s = .next (State.clock false false s) := rfl

theorem idleCycle_read_of_not_inited {s : State} (h : s.inited = false) :
    idleCycle 0b10 s = .next (State.clock false false s) := if_neg (of_eq_false_of_eq_true h)

/-- Settles O20, from the rule of IDLE on each of the three commands. -/
theorem nopReservedAndEarlyReadWriteNothing : Obligations.NopReservedAndEarlyReadWriteNothing := fun s hidle =>
  ⟨(commandCycle_of_idle 0b00 hidle).trans (idleCycle_nop s), (commandCycle_of_idle 0b11 hidle).trans (idleCycle_cmdRsvd s),
    fun hinit => (commandCycle_of_idle 0b10 hidle).trans (idleCycle_read_of_not_inited hinit)⟩

/-- Outside IDLE the command is not looked at (R151). -/
theorem commandCycle_of_ne_idle (c : BitVec 2) {s : State} (h : s.st ≠ .idle) : commandCycle c s = exec s.st.instr s := by
  rw [exec_state_eq_stateCycle]
  unfold commandCycle stateCycle
  cases hst : s.st with
  | idle => exact absurd hst h
  | armed | awaitPresence | awaitFrame | captureSync | captureCopy | flush | validate | extract | restoreIdle => rfl

/-- Settles O23: each of the four is the clock cycle with its code on `cmd`. -/
theorem commandsAreIgnoredOutsideIdle : Obligations.CommandsAreIgnoredOutsideIdle := fun _ h =>
  ⟨commandCycle_of_ne_idle 0b00 h, commandCycle_of_ne_idle 0b01 h, commandCycle_of_ne_idle 0b10 h,
    commandCycle_of_ne_idle 0b11 h⟩

/-- In IDLE the row of the state is the row of the command on `cmd`. -/
theorem exec_sIdle_eq_command {s : State} {c : BitVec 2} (hidle : s.st = .idle) (hcmd : s.inputs.cmd = c) :
    exec .sIdle s = exec (decodeCmd c) s := by
  subst hcmd
  rw [exec_decodeCmd, commandCycle_of_idle _ hidle]
  rfl

/-- Settles O24, by the command on `cmd`, from what each command does in IDLE. -/
theorem idleStateExaminesTheCommand : Obligations.IdleStateExaminesTheCommand := by
  intro s hidle
  obtain ⟨hnop, hrsvd, hearly⟩ := nopReservedAndEarlyReadWriteNothing s hidle
  refine ⟨fun hcmd => ?_, fun hcmd hinit => ?_, fun hcmd hinit => ?_, fun hcmd => ?_⟩
  · exact (exec_sIdle_eq_command hidle hcmd).trans (acceptedInitWritesTheStartingState s hidle).left
  · exact (exec_sIdle_eq_command hidle hcmd).trans (acceptedReadClearsAndArms s hidle hinit).left
  · exact (exec_sIdle_eq_command hidle hcmd).trans (hearly hinit)
  · rcases hcmd with hcmd | hcmd
    · exact (exec_sIdle_eq_command hidle hcmd).trans hnop
    · exact (exec_sIdle_eq_command hidle hcmd).trans hrsvd

/-! #### The states of a read cycle, one equation for each branch (R155 to R160) -/

/-- Settles O25. -/
theorem armedTriggersTheLine : Obligations.ArmedTriggersTheLine := fun _ => rfl

/-- A timer below some other timer value counts on without wrapping (R25). -/
theorem tmr_add_one {n m : BitVec 32} (h : n.toNat < m.toNat) : (n + 1).toNat = n.toNat + 1 := by
  bv_omega

theorem exec_sAwaitPresence_of_settling {s : State} (h : s.tmr.toNat < s.params.settleTicks.toNat) :
    exec .sAwaitPresence s = .next (State.clock false false { s with tmr := s.tmr + 1, st := .awaitPresence }) :=
  if_pos (decide_eq_true h)

theorem exec_sAwaitPresence_of_settled {s : State} (h : s.params.settleTicks.toNat ≤ s.tmr.toNat) :
    exec .sAwaitPresence s =
      if s.inputs.tir then .next (State.clock false false { s with tmr := 0, st := .awaitFrame })
      else .next (State.clock false false (s.raise .noTag)) := by
  have hsettled : ¬ settling s.params s.tmr = true := by simpa [settling] using h
  show awaitPresenceCycle s.inputs.tir s = _
  rw [awaitPresenceCycle, if_neg hsettled]
  cases s.inputs.tir with
  | false => rfl
  | true => rfl

/-- Settles O26, by whether the settle delay is over and the tag is present. -/
theorem awaitPresenceSettlesThenSamples : Obligations.AwaitPresenceSettlesThenSamples := by
  intro s
  refine ⟨fun hlt => ⟨exec_sAwaitPresence_of_settling hlt, tmr_add_one hlt⟩, fun hle htir => ?_, fun hle htir => ?_⟩
  · exact (exec_sAwaitPresence_of_settled hle).trans (if_neg (of_eq_false_of_eq_true htir))
  · exact (exec_sAwaitPresence_of_settled hle).trans (if_pos htir)

theorem exec_sAwaitFrame_of_enough {s : State} (h : s.params.readyThreshold.toNat ≤ s.inputs.rxCount.toNat) :
    exec .sAwaitFrame s = .next (State.clock false false { s with st := .captureSync }) :=
  if_pos (decide_eq_true h)

theorem exec_sAwaitFrame_of_fewer {s : State} (h : s.inputs.rxCount.toNat < s.params.readyThreshold.toNat) :
    exec .sAwaitFrame s =
      if s.params.timeoutTicks.toNat ≤ s.tmr.toNat then .next (State.clock false false (s.raise .timeout))
      else .next (State.clock false false { s with tmr := s.tmr + 1, st := .awaitFrame }) := by
  have hfewer : ¬ enoughBytes s.params s.inputs.rxCount = true := by simpa [enoughBytes] using h
  show awaitFrameCycle s.inputs.rxCount s = _
  rw [awaitFrameCycle, if_neg hfewer]
  simp only [deadlinePassed, decide_eq_true_eq]

/-- Settles O27: the count of bytes decides first, then the timer. -/
theorem awaitFrameTestsCountThenDeadline : Obligations.AwaitFrameTestsCountThenDeadline := by
  intro s
  refine ⟨exec_sAwaitFrame_of_enough, fun hfew hle => ?_, fun hfew hlt => ⟨?_, tmr_add_one hlt⟩⟩
  · exact (exec_sAwaitFrame_of_fewer hfew).trans (if_pos hle)
  · exact (exec_sAwaitFrame_of_fewer hfew).trans (if_neg (Nat.not_le.mpr hlt))

/-- Settles O31: the length operand of the verdict is `len` zero-extended. -/
theorem validateBranchesOnTheVerdict : Obligations.ValidateBranchesOnTheVerdict := fun _ =>
  ⟨validateCycle_of_valid, fun _ => validateCycle_of_invalid⟩

/-- Settles O32: the tag is `tagOfBytes` of the buffer. -/
theorem extractCopiesThePayload : Obligations.ExtractCopiesThePayload := fun s =>
  ⟨tagOfBytes s.buf.readByte, rfl, getElem_tagOfBytes s.buf.readByte⟩

/-- Settles O33. -/
theorem restoreIdleCommitsTheOutcome : Obligations.RestoreIdleCommitsTheOutcome := fun _ => rfl

/-! #### Every step keeps the invariants of the sequencer and the timer (R25, R26, R171)

From the READ on the registers of the result stay cleared until a state decides the outcome (`State.running`, `State.cleared`). A step
stays inside the read cycle, takes its exit, or ends in IDLE. -/

/-- The invariants are about the registers and the parameters only. -/
theorem SeqInv.of_registers {t u : State} (hr : t.registers = u.registers) (hparams : t.params = u.params)
    (h : SeqInv u) : SeqInv t := by
  rw [State.eq_inEnvironmentOf hr.symm hparams.symm]
  obtain ⟨hlegal, hline, hnot, hdone, hstatus, htag, hres, hsettle, hdeadline⟩ := h
  exact ⟨hlegal, hline, hnot, hdone, hstatus, htag, hres, hsettle, hdeadline⟩

/-- A read cycle is under way: what R171 (c) to (e) leave of `inited`, `done` and `status` outside IDLE. -/
def State.running (s : State) : Prop :=
  s.params.legal ∧ s.inited = true ∧ s.done = false ∧ s.status = .ok

/-- The outcome is not decided: no tag is delivered, and the pending outcome is the cleared one (R26). -/
def State.cleared (s : State) : Prop := s.tag = zeroTag ∧ s.res = .ok

theorem State.cleared.tag {s : State} (h : s.cleared) : s.tag = zeroTag := h.left

theorem SeqInv.running {s : State} (h : SeqInv s) (hst : s.st ≠ .idle) : s.running := by
  have hdone : s.done = false := Bool.eq_false_of_not_eq_true (mt h.doneIdle hst)
  have hinit : s.inited = true := by
    by_contra hfalse
    obtain ⟨hidle, _, _⟩ := h.notInited (Bool.eq_false_of_not_eq_true hfalse)
    exact hst hidle
  have hstatus : s.status = .ok := by
    by_contra herror
    obtain ⟨htrue, _⟩ := h.statusDone herror
    exact of_eq_false_of_eq_true hdone htrue
  exact ⟨h.legal, hinit, hdone, hstatus⟩

/-- Outside IDLE a tag is delivered only in RESTORE_IDLE, and only with Success. -/
theorem SeqInv.tag_of_ne_idle {s : State} (h : SeqInv s) (hst : s.st ≠ .idle) (htag : s.tag ≠ zeroTag) :
    s.st = .restoreIdle ∧ s.res = .ok := by
  rcases h.tagDelivered htag with ⟨hdone, _⟩ | hexit
  · exact absurd (h.doneIdle hdone) hst
  · exact hexit

theorem SeqInv.cleared {s : State} (h : SeqInv s) (hst : s.st ≠ .idle) (hexit : s.st ≠ .restoreIdle) : s.cleared :=
  ⟨by_contra fun htag => hexit (h.tag_of_ne_idle hst htag).left, h.undecided hst hexit⟩

/-- The states of a read cycle with the line triggered and the outcome not decided. -/
def St.midCycle : St → Bool
  | .awaitPresence | .awaitFrame | .captureSync | .captureCopy | .flush | .validate | .extract => true
  | .idle | .armed | .restoreIdle => false

theorem St.ne_of_eq_true {p : St → Bool} {a b : St} (ha : p a = true) (hb : p b = false) : a ≠ b := by
  rintro rfl
  exact of_eq_false_of_eq_true hb ha

theorem SeqInv.midCycle {s : State} (h : SeqInv s) (hst : St.midCycle s.st = true) :
    s.running ∧ s.cleared ∧ s.rstTrig = true :=
  have hidle : s.st ≠ .idle := St.ne_of_eq_true hst rfl
  ⟨h.running hidle, h.cleared hidle (St.ne_of_eq_true hst rfl), h.line.mpr ⟨hidle, St.ne_of_eq_true hst rfl⟩⟩

/-- A state of a read cycle whose outcome is not decided. -/
theorem SeqInv.of_cleared {u : State} (hrun : u.running) (hclear : u.cleared) (hst : u.st ≠ .idle)
    (hline : u.rstTrig = true ↔ u.st ≠ .armed)
    (hsettle : u.st = .awaitPresence → u.tmr.toNat ≤ u.params.settleTicks.toNat)
    (hdeadline : u.st = .awaitFrame → u.tmr.toNat ≤ u.params.timeoutTicks.toNat) : SeqInv u := by
  obtain ⟨hlegal, hinit, hdone, hstatus⟩ := hrun
  obtain ⟨htag, hres⟩ := hclear
  exact
    { legal := hlegal
      line := by rw [hline, and_iff_right hst]
      notInited := fun hfalse => of_eq_false_of_eq_true hfalse hinit
      doneIdle := fun htrue => of_eq_false_of_eq_true hdone htrue
      statusDone := fun hne => absurd hstatus hne
      tagDelivered := fun hne => absurd htag hne
      undecided := fun _ _ => hres
      settleBound := hsettle
      deadlineBound := hdeadline }

/-- The states of `St.midCycle` in which the timer does not run. -/
def St.untimed : St → Bool
  | .captureSync | .captureCopy | .flush | .validate | .extract => true
  | .idle | .armed | .awaitPresence | .awaitFrame | .restoreIdle => false

theorem SeqInv.of_untimed {u : State} (hrun : u.running) (hclear : u.cleared) (hline : u.rstTrig = true)
    (hst : St.untimed u.st = true) : SeqInv u :=
  have hne {x : St} (hx : St.untimed x = false) : u.st ≠ x := St.ne_of_eq_true hst hx
  .of_cleared hrun hclear (hne rfl) (iff_of_true hline (hne rfl)) (absurd · (hne rfl)) (absurd · (hne rfl))

/-- The exit of a read cycle (R196): an error leaves the tag cleared. -/
theorem SeqInv.of_exit {u : State} (hrun : u.running) (hst : u.st = .restoreIdle) (hline : u.rstTrig = true)
    (htag : u.tag ≠ zeroTag → u.res = .ok) : SeqInv u := by
  obtain ⟨hlegal, hinit, hdone, hstatus⟩ := hrun
  exact
    { legal := hlegal
      line := by simp [hline, hst]
      notInited := fun hfalse => of_eq_false_of_eq_true hfalse hinit
      doneIdle := fun htrue => of_eq_false_of_eq_true hdone htrue
      statusDone := fun hne => absurd hstatus hne
      tagDelivered := fun hne => .inr ⟨hst, htag hne⟩
      undecided := fun _ hne => absurd hst hne
      settleBound := fun h => nomatch hst.symm.trans h
      deadlineBound := fun h => nomatch hst.symm.trans h }

/-- IDLE: the line is idle, and what was committed is Success with whatever tag, or an error with the tag cleared. -/
theorem SeqInv.of_idle {u : State} (hlegal : u.params.legal) (hst : u.st = .idle) (hline : u.rstTrig = false)
    (hdone : u.done = true → u.inited = true) (hstatus : u.status ≠ .ok → u.done = true ∧ u.tag = zeroTag)
    (htag : u.tag ≠ zeroTag → u.done = true ∧ u.status = .ok) : SeqInv u where
  legal := hlegal
  line := by simp [hline, hst]
  notInited hinit := ⟨hst, hline, Bool.eq_false_of_not_eq_true fun h => of_eq_false_of_eq_true hinit (hdone h)⟩
  doneIdle _ := hst
  statusDone := hstatus
  tagDelivered hne := .inl (htag hne)
  undecided h := absurd hst h
  settleBound h := nomatch hst.symm.trans h
  deadlineBound h := nomatch hst.symm.trans h

/-- IDLE after the results have been cleared (R33, R34). -/
theorem SeqInv.of_idle_cleared {u : State} (hlegal : u.params.legal) (hst : u.st = .idle) (hline : u.rstTrig = false)
    (hdone : u.done = false) (hstatus : u.status = .ok) (htag : u.tag = zeroTag) : SeqInv u :=
  .of_idle hlegal hst hline (fun htrue => of_eq_false_of_eq_true hdone htrue) (absurd hstatus) (absurd htag)

/-- R160: the committed outcome is the pending one, which is Success wherever a tag stands. -/
theorem SeqInv.returnToIdle {s : State} (h : SeqInv s) (hst : s.st = .restoreIdle) : SeqInv s.returnToIdle := by
  have hidle : s.st ≠ .idle := hst ▸ nofun
  obtain ⟨hlegal, hinit, _, _⟩ := h.running hidle
  have htag (hne : s.tag ≠ zeroTag) : s.res = .ok := (h.tag_of_ne_idle hidle hne).right
  exact .of_idle hlegal rfl rfl (fun _ => hinit) (fun hres => ⟨rfl, by_contra fun hne => hres (htag hne)⟩)
    fun hne => ⟨rfl, htag hne⟩

/-- Settles O49, by the row of the state's rule (`step_registers`). -/
theorem stepKeepsSequencerInvariants : Obligations.StepKeepsSequencerInvariants := by
  intro s t h hstep
  have hparams : t.params = s.params := (step_isEdgeOf hstep).params
  rcases step_registers s t hstep with ⟨_, hreset⟩ | ⟨_, ⟨hst, hidle⟩ | ⟨hst, harmed⟩ | ⟨hst, hpresence⟩ | ⟨hst, hframe⟩ |
    ⟨hst, hsync⟩ | ⟨hst, hcopy⟩ | ⟨hst, hflush⟩ | ⟨hst, hvalidate⟩ | ⟨hst, hextract⟩ | ⟨hst, hrestore⟩⟩
  · exact .of_registers (hreset.trans s.hardReset_registers.symm) hparams (.of_idle_cleared h.legal rfl rfl rfl rfl rfl)
  · rcases hidle with ⟨_, hinit⟩ | ⟨hinited, hread⟩ | hstay
    · exact .of_registers hinit hparams (.of_idle_cleared h.legal rfl rfl rfl rfl rfl)
    · have hline : s.rstTrig ≠ true := fun htrue => (h.line.mp htrue).left hst
      exact .of_registers hread hparams
        (.of_cleared ⟨h.legal, hinited, rfl, rfl⟩ ⟨rfl, rfl⟩ nofun (iff_of_false hline (not_not_intro rfl)) nofun nofun)
    · exact h.of_registers hstay hparams
  · exact .of_registers harmed hparams
      (.of_cleared (h.running (hst ▸ nofun)) (h.cleared (hst ▸ nofun) (hst ▸ nofun)) nofun (iff_of_true rfl nofun)
        (fun _ => Nat.zero_le _) nofun)
  · obtain ⟨hrun, hclear, hline⟩ := h.midCycle (hst ▸ rfl)
    rcases hpresence with ⟨hlt, hsettle⟩ | hnoTag | hpresent
    · exact .of_registers hsettle hparams
        (.of_cleared hrun hclear nofun (iff_of_true hline nofun) (fun _ => (tmr_add_one hlt).trans_le hlt) nofun)
    · exact .of_registers hnoTag hparams (.of_exit hrun rfl hline (absurd hclear.tag))
    · exact .of_registers hpresent hparams
        (.of_cleared hrun hclear nofun (iff_of_true hline nofun) nofun fun _ => Nat.zero_le _)
  · obtain ⟨hrun, hclear, hline⟩ := h.midCycle (hst ▸ rfl)
    rcases hframe with ⟨hlt, hpoll⟩ | htimeout | hready
    · exact .of_registers hpoll hparams
        (.of_cleared hrun hclear nofun (iff_of_true hline nofun) nofun fun _ => (tmr_add_one hlt).trans_le hlt)
    · exact .of_registers htimeout hparams (.of_exit hrun rfl hline (absurd hclear.tag))
    · exact .of_registers hready hparams (.of_untimed hrun hclear hline rfl)
  · obtain ⟨hrun, hclear, hline⟩ := h.midCycle (hst ▸ rfl)
    rcases hsync with hr | hr | hr <;> exact .of_registers hr hparams (.of_untimed hrun hclear hline rfl)
  · obtain ⟨hrun, hclear, hline⟩ := h.midCycle (hst ▸ rfl)
    rcases hcopy with hempty | ⟨c, hbyte⟩
    · exact .of_registers hempty hparams (.of_untimed hrun hclear hline rfl)
    · exact .of_registers hbyte hparams (.of_untimed hrun hclear hline (by dsimp only; split <;> rfl))
  · obtain ⟨hrun, hclear, hline⟩ := h.midCycle (hst ▸ rfl)
    rcases hflush with hr | hr <;> exact .of_registers hr hparams (.of_untimed hrun hclear hline rfl)
  · obtain ⟨hrun, hclear, hline⟩ := h.midCycle (hst ▸ rfl)
    rcases hvalidate with ⟨_, hvalid⟩ | ⟨_, _, herror⟩
    · exact .of_registers hvalid hparams (.of_untimed hrun hclear hline rfl)
    · exact .of_registers herror hparams (.of_exit hrun rfl hline (absurd hclear.tag))
  · obtain ⟨hrun, _, hline⟩ := h.midCycle (hst ▸ rfl)
    exact .of_registers hextract hparams (.of_exit hrun rfl hline fun _ => rfl)
  · exact .of_registers hrestore hparams (h.returnToIdle hst)

/-! #### A delivered tag is the payload of a valid frame (R115, R159)

Only EXTRACT with its exit, and the commit of that exit, have anything to show. -/

/-- The invariants are about the registers only. -/
theorem ResultInv.of_registers {t u : State} (hr : t.registers = u.registers) (h : ResultInv u) : ResultInv t := by
  cases t
  cases u
  cases hr
  exact ⟨h.extractValid, h.exitValid, h.deliveredValid⟩

/-- Neither in EXTRACT, nor with Success pending or committed. -/
theorem ResultInv.of_undelivered {u : State} (hextract : u.st ≠ .extract) (hexit : u.st = .restoreIdle → u.res ≠ .ok)
    (hidle : u.st = .idle → u.done = false) : ResultInv u where
  extractValid h := absurd h hextract
  exitValid h hok := absurd hok (hexit h)
  deliveredValid h hdone := of_eq_false_of_eq_true (hidle h) hdone

/-- Settles O51, by the row of the state's rule: EXTRACT follows a passed verdict, and nothing writes the buffer or the tag after it. -/
theorem stepKeepsDeliveredTagsValid : Obligations.StepKeepsDeliveredTagsValid := by
  intro s t h hstep
  rcases step_registers s t hstep with ⟨_, hreset⟩ | ⟨_, ⟨_, hidle⟩ | ⟨_, harmed⟩ | ⟨_, hpresence⟩ | ⟨_, hframe⟩ |
    ⟨_, hsync⟩ | ⟨_, hcopy⟩ | ⟨_, hflush⟩ | ⟨_, hvalidate⟩ | ⟨hst, hextract⟩ | ⟨hst, hrestore⟩⟩
  · exact State.reset_resultInv.of_registers hreset
  · rcases hidle with ⟨_, hinit⟩ | ⟨_, hread⟩ | hstay
    · exact .of_registers hinit (.of_undelivered nofun nofun fun _ => rfl)
    · exact .of_registers hread (.of_undelivered nofun nofun nofun)
    · exact h.of_registers hstay
  · exact .of_registers harmed (.of_undelivered nofun nofun nofun)
  · rcases hpresence with ⟨_, hr⟩ | hr | hr <;> exact .of_registers hr (.of_undelivered nofun nofun nofun)
  · rcases hframe with ⟨_, hr⟩ | hr | hr <;> exact .of_registers hr (.of_undelivered nofun nofun nofun)
  · rcases hsync with hr | hr | hr <;> exact .of_registers hr (.of_undelivered nofun nofun nofun)
  · rcases hcopy with hempty | ⟨c, hbyte⟩
    · exact .of_registers hempty (.of_undelivered nofun nofun nofun)
    · refine .of_registers hbyte ?_
      split
      · exact .of_undelivered nofun nofun nofun
      · exact .of_undelivered nofun nofun nofun
  · rcases hflush with hr | hr <;> exact .of_registers hr (.of_undelivered nofun nofun nofun)
  · rcases hvalidate with ⟨hvalid, hpass⟩ | ⟨r, hr, herror⟩
    · exact .of_registers hpass ⟨fun _ => hvalid, nofun, nofun⟩
    · exact .of_registers herror (.of_undelivered nofun (fun _ => hr) nofun)
  · exact .of_registers hextract ⟨nofun, fun _ _ => ⟨h.extractValid hst, rfl⟩, nofun⟩
  · exact .of_registers hrestore ⟨nofun, nofun, fun _ _ hok => h.exitValid hst hok⟩

/-! #### The transition table (R170) -/

/-- Settles O47, by the row of the state's rule. -/
theorem stepsFollowTheTransitionTable : Obligations.StepsFollowTheTransitionTable := by
  intro s t hstep
  have hnext {u : State} (hr : t.registers = u.registers) : t.st = u.st := congrArg Registers.st hr
  rcases step_registers s t hstep with ⟨hon, hreset⟩ | ⟨hoff, hrow⟩
  · exact ⟨fun hoff => of_eq_false_of_eq_true hoff hon, fun _ => hnext hreset⟩
  refine ⟨fun _ => ?_, fun hon => of_eq_false_of_eq_true hoff hon⟩
  rcases hrow with ⟨hst, hidle⟩ | ⟨hst, harmed⟩ | ⟨hst, hpresence⟩ | ⟨hst, hframe⟩ | ⟨hst, hsync⟩ | ⟨hst, hcopy⟩ |
    ⟨hst, hflush⟩ | ⟨hst, hvalidate⟩ | ⟨hst, hextract⟩ | ⟨hst, hrestore⟩ <;> rw [hst]
  · rcases hidle with ⟨_, hr⟩ | ⟨_, hr⟩ | hr
    · rw [hnext hr]; rfl
    · rw [hnext hr]; rfl
    · rw [hnext hr, hst]; rfl
  · rw [hnext harmed]; rfl
  · rcases hpresence with ⟨_, hr⟩ | hr | hr <;> rw [hnext hr] <;> rfl
  · rcases hframe with ⟨_, hr⟩ | hr | hr <;> rw [hnext hr] <;> rfl
  · rcases hsync with hr | hr | hr <;> rw [hnext hr] <;> rfl
  · rcases hcopy with hr | ⟨c, hr⟩
    · rw [hnext hr]; rfl
    · rw [hnext hr]; dsimp only; split <;> rfl
  · rcases hflush with hr | hr <;> rw [hnext hr] <;> rfl
  · rcases hvalidate with ⟨_, hr⟩ | ⟨_, _, hr⟩ <;> rw [hnext hr] <;> rfl
  · rw [hnext hextract]; rfl
  · rw [hnext hrestore]; rfl

/-! #### One writer for each result and mode register (R22, R24, R29, R155, R160)

Every row leaves these six registers as they are, except that hardware reset and the two accepted commands clear them, and that ARMED,
CAPTURE_SYNC, CAPTURE_COPY, EXTRACT and RESTORE_IDLE write what is theirs. -/

/-- From `s` to `t` a result or mode register rises, or gets another value than the cleared one, only by its writer. -/
structure WrittenByOwner (s t : State) : Prop where
  line : s.rstTrig = false → t.rstTrig = true → s.st = .armed
  done : s.done = false → t.done = true → s.st = .restoreIdle
  status : t.status ≠ s.status → t.status ≠ .ok → s.st = .restoreIdle
  tag : t.tag ≠ s.tag → t.tag ≠ zeroTag → s.st = .extract
  buf : t.buf ≠ s.buf → t.buf ≠ [] → s.st = .captureSync ∨ s.st = .captureCopy
  setsInited : s.inited = false → t.inited = true → s.st = .idle ∧ s.inputs.cmd = 0b01 ∧ s.inputs.hwReset = false
  clearsInited : s.inited = true → t.inited = false → s.inputs.hwReset = true

theorem WrittenByOwner.of_registers {s t u : State} (hr : t.registers = u.registers) (h : WrittenByOwner s u) :
    WrittenByOwner s t := by
  cases t
  cases u
  cases hr
  exact ⟨h.line, h.done, h.status, h.tag, h.buf, h.setsInited, h.clearsInited⟩

/-- A row that writes none of the six registers. -/
theorem WrittenByOwner.refl (s : State) : WrittenByOwner s s where
  line := of_eq_false_of_eq_true
  done := of_eq_false_of_eq_true
  status h := absurd rfl h
  tag h := absurd rfl h
  buf h := absurd rfl h
  setsInited := of_eq_false_of_eq_true
  clearsInited htrue hfalse := of_eq_false_of_eq_true hfalse htrue

/-- The clearing of hardware reset and of the accepted commands (R33, R34, R35). -/
theorem WrittenByOwner.of_cleared {s u : State} (hline : u.rstTrig = false ∨ u.rstTrig = s.rstTrig) (hdone : u.done = false)
    (hstatus : u.status = .ok) (htag : u.tag = zeroTag) (hbuf : u.buf = [])
    (hset : s.inited = false → u.inited = true → s.st = .idle ∧ s.inputs.cmd = 0b01 ∧ s.inputs.hwReset = false)
    (hclear : s.inited = true → u.inited = false → s.inputs.hwReset = true) : WrittenByOwner s u where
  line hs hu := hline.elim (of_eq_false_of_eq_true · hu) fun hkept => of_eq_false_of_eq_true (hkept.trans hs) hu
  done _ hu := of_eq_false_of_eq_true hdone hu
  status _ h := absurd hstatus h
  tag _ h := absurd htag h
  buf _ h := absurd hbuf h
  setsInited := hset
  clearsInited := hclear

theorem step_writtenByOwner {s t : State} (hstep : step s = .next t) : WrittenByOwner s t := by
  have hkept : WrittenByOwner s s := .refl s
  rcases step_registers s t hstep with ⟨hon, hreset⟩ | ⟨hoff, ⟨hst, hidle⟩ | ⟨hst, harmed⟩ | ⟨_, hpresence⟩ | ⟨_, hframe⟩ |
    ⟨hst, hsync⟩ | ⟨hst, hcopy⟩ | ⟨_, hflush⟩ | ⟨_, hvalidate⟩ | ⟨hst, hextract⟩ | ⟨hst, hrestore⟩⟩
  · exact .of_registers hreset (.of_cleared (.inl rfl) rfl rfl rfl rfl nofun fun _ _ => hon)
  · rcases hidle with ⟨hcmd, hinit⟩ | ⟨_, hread⟩ | hstay
    · exact .of_registers hinit (.of_cleared (.inl rfl) rfl rfl rfl rfl (fun _ _ => ⟨hst, hcmd, hoff⟩) nofun)
    · exact .of_registers hread (.of_cleared (.inr rfl) rfl rfl rfl rfl hkept.setsInited hkept.clearsInited)
    · exact .of_registers hstay hkept
  · exact .of_registers harmed { hkept with line := fun _ _ => hst }
  · rcases hpresence with ⟨_, hr⟩ | hr | hr <;> exact .of_registers hr { hkept with }
  · rcases hframe with ⟨_, hr⟩ | hr | hr <;> exact .of_registers hr { hkept with }
  · rcases hsync with hempty | hstx | hskip
    · exact .of_registers hempty { hkept with }
    · exact .of_registers hstx { hkept with buf := fun _ _ => .inl hst }
    · exact .of_registers hskip { hkept with }
  · rcases hcopy with hempty | ⟨c, hbyte⟩
    · exact .of_registers hempty { hkept with }
    · exact .of_registers hbyte { hkept with buf := fun _ _ => .inr hst }
  · rcases hflush with hr | hr <;> exact .of_registers hr { hkept with }
  · rcases hvalidate with ⟨_, hr⟩ | ⟨_, _, hr⟩ <;> exact .of_registers hr { hkept with }
  · exact .of_registers hextract { hkept with tag := fun _ _ => hst }
  · exact .of_registers hrestore
      { hkept with line := nofun, done := fun _ _ => hst, status := fun _ _ => hst }

/-- Settles O48, from `step_writtenByOwner`. -/
theorem eachResultAndModeRegisterHasItsOneWriter : Obligations.EachResultAndModeRegisterHasItsOneWriter := by
  intro s t hstep
  obtain ⟨hline, hdone, hstatus, htag, hbuf, hset, hclear⟩ := step_writtenByOwner hstep
  exact ⟨hline, hdone, hstatus, htag, hbuf, hset, hclear⟩

/-! #### Runs of a read cycle before the capture (R156, R157, R172, R174) -/

theorem run_add (m n : Nat) : ∀ s t : State, Host.Core.run Sys2Proof.core m s = .next t →
    Host.Core.run Sys2Proof.core (m + n) s = Host.Core.run Sys2Proof.core n t := by
  induction m with
  | zero =>
    intro s t h
    cases h
    rw [Nat.zero_add]
  | succ m ih =>
    intro s t h
    obtain ⟨u, hu⟩ := step_total s
    rw [run_succ m s u hu] at h
    rw [Nat.add_right_comm, run_succ (m + n) s u hu]
    exact ih u t h

/-- `k` clock cycles lead from `s` to `t` and take `k` moves of the environment; on a quiet transport they leave the queue. -/
structure RunsTo (k : Nat) (s t : State) : Prop where
  run : Host.Core.run Sys2Proof.core k s = .next t
  params : t.params = s.params
  cycle : t.cycle = s.cycle + k
  script : t.script = s.script.drop k
  queue : s.quietFor k → t.queue = s.queue

namespace RunsTo

theorem refl (s : State) : RunsTo 0 s s := ⟨rfl, rfl, rfl, rfl, fun _ => rfl⟩

theorem moveAt {k : Nat} {s t : State} (h : RunsTo k s t) (j : Nat) : t.moveAt j = s.moveAt (k + j) := by
  simp only [State.moveAt, h.script, h.cycle, List.drop_drop, Nat.add_assoc]

theorem tir {k : Nat} {s t : State} (h : RunsTo k s t) : t.inputs.tir = (s.moveAt k).tir :=
  congrArg EnvMove.tir (t.moveAt_zero.symm.trans (h.moveAt 0))

/-- What holds of all the moves of a longer run holds of the moves that are left. -/
theorem moves (p : EnvMove → Prop) {k m n : Nat} {s t : State} (h : RunsTo m s t) (hk : m + n = k)
    (hs : ∀ j : Nat, j < k → p (s.moveAt j)) : ∀ j : Nat, j < n → p (t.moveAt j) := by
  intro j hj
  rw [h.moveAt]
  exact hs (m + j) (by omega)

theorem trans {k m n : Nat} {s t u : State} (h : RunsTo m s t) (h' : RunsTo n t u) (hk : m + n = k) : RunsTo k s u where
  run := hk ▸ (run_add m n s t h.run).trans h'.run
  params := h'.params.trans h.params
  cycle := by rw [h'.cycle, h.cycle, Nat.add_assoc, hk]
  script := by rw [h'.script, h.script, List.drop_drop, hk]
  queue hquiet :=
    (h'.queue (h.moves (isQuiet · = true) hk hquiet)).trans (h.queue fun j hj => hquiet j (by omega))

/-- One step more, without hardware reset, by an operation that writes registers only and neither pops nor begins the transport. -/
theorem extend {k : Nat} {s t u : State} {x : St} (h : RunsTo k s t) (hreset : (s.moveAt k).hwReset = false) (hst : t.st = x)
    (hexec : exec x.instr t = .next (State.clock false false u)) (hparams : u.params = t.params := by rfl)
    (hqueue : u.queue = t.queue := by rfl) (hscript : u.script = t.script := by rfl) (hcycle : u.cycle = t.cycle := by rfl) :
    RunsTo (k + 1) s (State.clock false false u) := by
  have hmove : t.move = s.moveAt k := t.moveAt_zero.symm.trans (h.moveAt 0)
  have hstep : step t = .next (State.clock false false u) := by
    rw [step_of_not_hwReset (s := t) ((congrArg EnvMove.hwReset hmove).trans hreset), ← exec_state_eq_stateCycle, hst]
    exact hexec
  refine h.trans ⟨run_succ 0 t _ hstep, hparams, congrArg (· + 1) hcycle, ?_, fun hquiet => ?_⟩ rfl
  · rw [State.clock_script, hscript, List.drop_one]
  · have hsame : u.move = t.move := by rw [State.move, State.move, hscript, hcycle]
    rw [State.clock_queue, hsame, hqueue]
    exact transportEdge_of_quiet (State.quietFor.move hquiet) false t.queue

/-- The exit with an outcome, and the return to IDLE that commits it (R160, R196, R197). -/
theorem exit {k : Nat} {s t : State} {x : St} {r : ResultCode} (h : RunsTo k s t)
    (hreset : ∀ j : Nat, j < k + 2 → (s.moveAt j).hwReset = false) (hst : t.st = x)
    (hexec : exec x.instr t = .next (State.clock false false (t.raise r))) :
    ∃ u : State, RunsTo (k + 2) s u ∧
      u.registers = { t.registers with res := r, status := r, done := true, rstTrig := false, st := .idle } :=
  ⟨_, (h.extend (hreset k (by omega)) hst hexec).extend (hreset (k + 1) (by omega)) rfl (restoreIdleCommitsTheOutcome _), rfl⟩

end RunsTo

theorem hwReset_of_isQuiet {m : EnvMove} (h : isQuiet m = true) : m.hwReset = false := ((isQuiet_iff m).mp h).left

theorem toNat_add_ofNat {n m : BitVec 32} {k : Nat} (h : n.toNat + k ≤ m.toNat) :
    (n + BitVec.ofNat 32 k).toNat = n.toNat + k := by
  have hfits : n.toNat + k < 2 ^ 32 := h.trans_lt m.isLt
  rw [BitVec.toNat_add, BitVec.toNat_ofNat, Nat.add_mod_mod, Nat.mod_eq_of_lt hfits]

/-- A timer that starts from 0 and counts as often as its bound says ends at the bound. -/
theorem add_ofNat_toNat {n m : BitVec 32} (h : n = 0) : n + BitVec.ofNat 32 m.toNat = m := by
  simp [h]

/-- While every cycle of a state counts the timer on, up to a bound, every other register stays as it was. -/
theorem run_count {x : St} {s : State} {bound : BitVec 32} (hst : s.st = x) (k : Nat) (hle : s.tmr.toNat + k ≤ bound.toNat)
    (hreset : ∀ j : Nat, j < k → (s.moveAt j).hwReset = false)
    (hexec : ∀ (j : Nat) (t : State), j < k → RunsTo j s t → t.tmr.toNat < bound.toNat →
      exec x.instr t = .next (State.clock false false { t with tmr := t.tmr + 1, st := x })) :
    ∃ t : State, RunsTo k s t ∧ t.registers = { s.registers with tmr := s.tmr + BitVec.ofNat 32 k } := by
  induction k with
  | zero => exact ⟨s, .refl s, by simp [State.registers]⟩
  | succ k ih =>
    obtain ⟨t, hrun, hregs⟩ :=
      ih (by omega) (fun j hj => hreset j (by omega)) fun j t hj => hexec j t (by omega)
    have htst : t.st = x := (congrArg Registers.st hregs).trans hst
    have htmr : t.tmr = s.tmr + BitVec.ofNat 32 k := congrArg Registers.tmr hregs
    have hlt : t.tmr.toNat < bound.toNat := by
      rw [htmr, toNat_add_ofNat (m := bound) (by omega)]
      omega
    refine ⟨_, hrun.extend (hreset k (by omega)) htst (hexec k t (by omega) hrun hlt), ?_⟩
    calc
      (State.clock false false { t with tmr := t.tmr + 1, st := x }).registers
        = { t.registers with tmr := t.tmr + 1, st := x } := rfl
      _ = { s.registers with tmr := s.tmr + BitVec.ofNat 32 k + 1, st := s.st } := by rw [htmr, hregs, hst]
      _ = { s.registers with tmr := s.tmr + BitVec.ofNat 32 (k + 1) } := by rw [BitVec.add_assoc, BitVec.ofNat_add]; rfl

/-- The settle delay (R156). -/
theorem run_settle {k : Nat} {s : State} (hst : s.st = .awaitPresence) (hle : s.tmr.toNat + k ≤ s.params.settleTicks.toNat)
    (hreset : ∀ j : Nat, j < k → (s.moveAt j).hwReset = false) :
    ∃ t : State, RunsTo k s t ∧ t.registers = { s.registers with tmr := s.tmr + BitVec.ofNat 32 k } :=
  run_count hst k hle hreset fun _ _ _ hrun hlt => exec_sAwaitPresence_of_settling (by rwa [hrun.params])

/-- Settles O56, by induction on the number of steps (`run_count`). -/
theorem settleDelayCountsUpToSettleTicks : Obligations.SettleDelayCountsUpToSettleTicks := by
  intro k s hst hle hreset
  obtain ⟨t, hrun, hregs⟩ := run_settle hst hle hreset
  exact ⟨t, hrun.run, hregs, hrun.params, hrun.cycle, hrun.script⟩

/-- An accepted READ comes to the sample after two steps and the settle delay, with the results cleared and the line triggered. -/
theorem run_read {s : State} (hst : s.st = .idle) (hinit : s.inited = true) (hcmd : (s.moveAt 0).cmd = 0b10)
    (hreset : ∀ j : Nat, j < s.params.settleTicks.toNat + 2 → (s.moveAt j).hwReset = false) :
    ∃ t : State, RunsTo (s.params.settleTicks.toNat + 2) s t ∧
      t.registers = ⟨.awaitPresence, [], 0, zeroTag, s.params.settleTicks, .ok, .ok, false, true, true⟩ ∧
      t.params.settleTicks.toNat ≤ t.tmr.toNat := by
  obtain ⟨_, hread, _⟩ := idleStateExaminesTheCommand s hst
  rw [State.moveAt_zero] at hcmd
  have harmed := (RunsTo.refl s).extend (hreset 0 (by omega)) hst (hread hcmd hinit)
  have htriggered := harmed.extend (hreset 1 (by omega)) rfl (armedTriggersTheLine _)
  obtain ⟨t, hsettle, hregs⟩ := run_settle (k := s.params.settleTicks.toNat) rfl (Nat.zero_add _).le
    (htriggered.moves (·.hwReset = false) (Nat.add_comm _ _) hreset)
  have hrun := htriggered.trans hsettle (Nat.add_comm _ _)
  have hsample : t.registers = ⟨.awaitPresence, [], 0, zeroTag, s.params.settleTicks, .ok, .ok, false, true, true⟩ := by
    rw [hregs, State.clock_tmr, add_ofNat_toNat rfl]
    exact congrArg (Registers.mk _ _ _ _ _ _ _ _ · _) hinit
  have htmr : t.tmr = s.params.settleTicks := congrArg Registers.tmr hsample
  exact ⟨t, hrun, hsample, by rw [hrun.params, htmr]⟩

/-- Settles O59: the sample finds no tag. -/
theorem noTagIsReportedSettleTicksPlusFourStepsAfterRead :
    Obligations.NoTagIsReportedSettleTicksPlusFourStepsAfterRead := by
  intro s hst hinit hcmd hreset htir
  obtain ⟨t, hread, hregs, hsettled⟩ := run_read hst hinit hcmd fun j hj => hreset j (by omega)
  obtain ⟨_, hnoTag, _⟩ := awaitPresenceSettlesThenSamples t
  obtain ⟨u, hexit, hdone⟩ :=
    hread.exit hreset (congrArg Registers.st hregs) (hnoTag hsettled (hread.tir.trans htir))
  exact ⟨u, hexit.run, hdone.trans (by rw [hregs]; rfl)⟩

/-- The saturated count is below every threshold the queue is below (R58). -/
theorem rxCount_lt_of_length_lt {s : State} {n : Nat} (h : s.queue.length < n) : s.inputs.rxCount.toNat < n := by
  rw [State.inputs_rxCount, rxCountOf_toNat]
  omega

/-- On a quiet transport with too few bytes AWAIT_FRAME polls until the deadline and ends in IDLE with Timeout (R157, R192). -/
theorem run_timeout {s : State} (hst : s.st = .awaitFrame) (hzero : s.tmr = 0)
    (hfew : s.queue.length < s.params.readyThreshold.toNat) (hquiet : s.quietFor (s.params.timeoutTicks.toNat + 2)) :
    ∃ t : State, RunsTo (s.params.timeoutTicks.toNat + 2) s t ∧
      t.registers =
        { s.registers with
          tmr := s.params.timeoutTicks, res := .timeout, status := .timeout, done := true, rstTrig := false, st := .idle } := by
  have hreset (j : Nat) (hj : j < s.params.timeoutTicks.toNat + 2) : (s.moveAt j).hwReset = false :=
    hwReset_of_isQuiet (hquiet j hj)
  have hfewer {k : Nat} {t : State} (hrun : RunsTo k s t) (hk : k ≤ s.params.timeoutTicks.toNat) :
      t.inputs.rxCount.toNat < t.params.readyThreshold.toNat := by
    refine rxCount_lt_of_length_lt ?_
    rw [hrun.queue fun j hj => hquiet j (by omega), hrun.params]
    exact hfew
  obtain ⟨t, hpoll, hregs⟩ := run_count hst s.params.timeoutTicks.toNat (bound := s.params.timeoutTicks) (by simp [hzero])
    (fun j hj => hreset j (by omega)) fun j t hj hrun hlt =>
      (exec_sAwaitFrame_of_fewer (hfewer hrun hj.le)).trans (if_neg (by rw [hrun.params]; omega))
  rw [add_ofNat_toNat hzero] at hregs
  have htmr : t.tmr = s.params.timeoutTicks := congrArg Registers.tmr hregs
  obtain ⟨_, htimeout, _⟩ := awaitFrameTestsCountThenDeadline t
  obtain ⟨u, hexit, hdone⟩ := hpoll.exit hreset ((congrArg Registers.st hregs).trans hst)
    (htimeout (hfewer hpoll le_rfl) (by rw [hpoll.params, htmr]))
  exact ⟨u, hexit, by rw [hdone, hregs]⟩

/-- Settles O60: the sample finds the tag, and the polls find too few bytes until the deadline. -/
theorem timeoutIsReportedAfterTheLastPoll : Obligations.TimeoutIsReportedAfterTheLastPoll := by
  intro s hst hinit hcmd hquiet htir hfew
  have hreset (j : Nat) (hj : j < s.params.settleTicks.toNat + s.params.timeoutTicks.toNat + 5) :
      (s.moveAt j).hwReset = false := hwReset_of_isQuiet (hquiet j hj)
  obtain ⟨t, hread, hregs, hsettled⟩ := run_read hst hinit hcmd fun j hj => hreset j (by omega)
  obtain ⟨_, _, hpresent⟩ := awaitPresenceSettlesThenSamples t
  have hsample :=
    hread.extend (hreset _ (by omega)) (congrArg Registers.st hregs) (hpresent hsettled (hread.tir.trans htir))
  generalize hwait : State.clock false false { t with tmr := 0, st := .awaitFrame } = w at hsample
  have hwregs : w.registers = ⟨.awaitFrame, [], 0, zeroTag, 0, .ok, .ok, false, true, true⟩ := by
    subst hwait
    exact congrArg (fun r : Registers => { r with tmr := 0, st := .awaitFrame }) hregs
  have hkept : w.queue = s.queue := hsample.queue fun j hj => hquiet j (by omega)
  obtain ⟨u, htimeout, hdone⟩ := run_timeout (congrArg Registers.st hwregs) (congrArg Registers.tmr hwregs)
    (by rw [hkept, hsample.params]; exact hfew)
    (hsample.moves (isQuiet · = true) rfl fun j hj => hquiet j (by rw [hsample.params] at hj; omega))
  rw [hsample.params] at htimeout hdone
  have hrun := hsample.trans htimeout (k := s.params.settleTicks.toNat + s.params.timeoutTicks.toNat + 5) (by omega)
  exact ⟨u, hrun.run, hdone.trans (by rw [hwregs]; rfl), hrun.queue hquiet⟩

end Sys2Proof.Machine

namespace Sys2Proof.Machine

/-! ### The outcomes of a read cycle (60_exceptions.md) -/

/-- Every outcome other than Success is an exit that records the outcome and writes nothing else (R196). -/
theorem exec_instr_of_error {r : ResultCode} (hr : r ≠ .ok) (s : State) :
    exec r.instr s = .next (State.clock false false (s.raise r)) := by
  cases r with
  | ok => exact absurd rfl hr
  | noTag | timeout | tooShort | badFraming | badChecksum => rfl

/-- Settles O36: the five codes are the outcomes other than Success. -/
theorem errorExitsRecordTheirCode : Obligations.ErrorExitsRecordTheirCode := fun s =>
  ⟨exec_instr_of_error (r := .noTag) (by decide) s, exec_instr_of_error (r := .timeout) (by decide) s,
    exec_instr_of_error (r := .tooShort) (by decide) s, exec_instr_of_error (r := .badFraming) (by decide) s,
    exec_instr_of_error (r := .badChecksum) (by decide) s⟩

/-- Success is the clock cycle of EXTRACT (R159, R190). -/
theorem exec_ok_eq_sExtract (s : State) : exec .ok s = exec .sExtract s := rfl

/-- Settles O37: Success is the clock cycle of EXTRACT, which copies the payload. -/
theorem successExitDeliversTheTag : Obligations.SuccessExitDeliversTheTag := by
  intro s
  rw [exec_ok_eq_sExtract]
  exact extractCopiesThePayload s

/-- Without hardware reset a step is the operation of the state the sequencer is in (R11, R21). -/
theorem step_eq_exec_instr {s : State} {x : St} (hreset : s.inputs.hwReset = false) (hst : s.st = x) :
    step s = exec x.instr s := by
  rw [step_of_not_hwReset hreset, ← exec_state_eq_stateCycle, hst]

/-- Where the operation of the state takes the exit of an error, the step is the operation of that error. -/
theorem step_eq_exec_error {s : State} {x : St} {r : ResultCode} (hreset : s.inputs.hwReset = false) (hst : s.st = x)
    (hr : r ≠ .ok) (hexit : exec x.instr s = .next (State.clock false false (s.raise r))) : step s = exec r.instr s :=
  calc
    step s = exec x.instr s := step_eq_exec_instr hreset hst
    _ = .next (State.clock false false (s.raise r)) := hexit
    _ = exec r.instr s := (exec_instr_of_error hr s).symm

/-- Settles O9: AWAIT_PRESENCE, AWAIT_FRAME and VALIDATE take the exit of an error, EXTRACT the one of Success. -/
theorem decidingStepIsTheOutcomeOperation : Obligations.DecidingStepIsTheOutcomeOperation := by
  intro s hreset
  obtain ⟨_, hnoTag, _⟩ := awaitPresenceSettlesThenSamples s
  obtain ⟨_, htimeout, _⟩ := awaitFrameTestsCountThenDeadline s
  obtain ⟨_, hinvalid⟩ := validateBranchesOnTheVerdict s
  refine ⟨fun hst hle htir => ?_, fun hst hfew hle => ?_, fun hst r hverdict hr => ?_, fun hst => ?_⟩
  · exact step_eq_exec_error hreset hst (r := .noTag) (by decide) (hnoTag hle htir)
  · exact step_eq_exec_error hreset hst (r := .timeout) (by decide) (htimeout hfew hle)
  · exact step_eq_exec_error hreset hst hr (hinvalid r hverdict hr)
  · exact (step_eq_exec_instr hreset hst).trans (exec_ok_eq_sExtract s).symm

end Sys2Proof.Machine
